-- ==== Sys2Proof/Word.lean ====
section
/-! DEFINITION. The plain types of the WZ-340 model: characters, line levels and the small numbers the
manual gives a range to. -/

namespace Sys2Proof

/-- The value of one character of the line (R34) or of the local port (R178): 8 data bits. -/
abbrev Byte := BitVec 8

/-- The replica's count of applied sequenced frames, and the TSEQ field of a frame (R10, R35). -/
abbrev Tseq := BitVec 16

/-- A station number, 0 to 31 (section 0.7, R184). -/
abbrev Station := Fin 32

/-- The index of a claim record, 0 to 31 (R149). -/
abbrev RecordIndex := Fin 32

/-- A resource number, 0 to 63 (R4). -/
abbrev Resource := Fin 64

/-- A client slot, 0 to 7 (R148). -/
abbrev Slot := Fin 8

/-- A level of the coordination line (R48): dominant is low and prevails. -/
inductive Level where
  | dominant
  | recessive
deriving DecidableEq, Repr

end Sys2Proof
end

