-- ==== Sys2Proof/Syntax.lean ====
section
/-! DEFINITION. The commands of the block: one constructor per row of spec/opcode_table.json, in the
table's order. The host's commands carry the argument characters of R195, multi-character values
assembled low character first. -/

namespace Sys2Proof

/-- The two separate paths on which the transmitter's reports travel to the owners of its entries
(R64, R76). -/
inductive ReportPath where
  | claimUnit
  | controller
deriving DecidableEq, Repr

/-- One indivisible step of the part (spec/opcode_table.json; 95_what_each_step_holds.md). -/
inductive Instr where
  /-- DEVICE_RESET (R26): the levels found at the release of reset on SN4 to SN0 (SN4 the most
  significant), on AUTO (true for high) and on CS# (true for low). -/
  | deviceReset (straps : BitVec 5) (auto csLow : Bool)
  /-- TRANSACTION_OPEN (R178): a falling edge of CS#. -/
  | transactionOpen
  /-- TRANSACTION_CLOSE (R178): a rising edge of CS#. -/
  | transactionClose
  /-- PORT_CHARACTER (R179): all 8 bits of a character have been clocked in on MOSI. -/
  | portCharacter (mosi : Byte)
  /-- CONFIGURE (R187). -/
  | configure (d : BitVec 16) (f : Byte) (timebase : BitVec 16) (p k : Byte)
  /-- DEFINE-RESOURCE (R188). -/
  | defineResource (resource limit : Byte)
  /-- JOIN (R190). -/
  | join
  /-- LEAVE, the command (R141, R191). -/
  | leave
  /-- CLAIM, the command (R153). -/
  | claim (slot resource flags : Byte) (waitLimit : BitVec 16)
  /-- DROP, the command (R161). -/
  | drop (record : Byte)
  /-- READ-CLAIM (R166). -/
  | readClaim (record option : Byte)
  /-- RETIRE (R167). -/
  | retire (record : Byte)
  /-- READ-NOTICE (R173). -/
  | readNotice
  /-- ACK-NOTICE (R174). -/
  | ackNotice (subject count : Byte)
  /-- READ-STATUS (R192). -/
  | readStatus
  /-- READ-ROSTER (R193). -/
  | readRoster
  /-- READ-RESOURCE (R194). -/
  | readResource (resource first : Byte)
  /-- REPEAT-RESPONSE (R182). -/
  | repeatResponse
  /-- A command character that names no command (R183). -/
  | unknownCommand (character : Byte)
  /-- TIMEBASE_TICK (R189). -/
  | timebaseTick
  /-- START_EDGE (R51): the edge is taken, or the start bit it began is judged. -/
  | startEdge
  /-- ATTEMPT_START (R56, R71). -/
  | attemptStart
  /-- CHARACTER_COMPLETE (R52, R53). -/
  | characterComplete
  /-- GAP_EXPIRY (R54). -/
  | gapExpiry
  /-- LINE_IDLE (R55). -/
  | lineIdle
  /-- ARBITRATION_LOSS (R57, R73). -/
  | arbitrationLoss
  /-- READBACK_MISMATCH (R58, R74). -/
  | readbackMismatch
  /-- VETO_DRIVE_END (R59). -/
  | vetoDriveEnd
  /-- BREAK_DRIVE_END (R58). -/
  | breakDriveEnd
  /-- WINDOW_CLOSE (R60, R75). -/
  | windowClose
  /-- BREAK (R61). -/
  | breakTaken
  /-- BREAK_END (R61). -/
  | breakEnd
  /-- LINE_FAULT (R62, R135). -/
  | lineFault
  /-- LINE_RECOVERY (R62, R136). -/
  | lineRecovery
  /-- TAKE_CHARACTER (R85). -/
  | takeCharacter
  /-- TAKE_TRUNCATION (R86). -/
  | takeTruncation
  /-- TAKE_BREAK (R86). -/
  | takeBreak
  /-- WINDOW_OPENING (R87). -/
  | windowOpening
  /-- WINDOW_RESULT (R93). -/
  | windowResult
  /-- HANDOFF (R94). -/
  | handoff
  /-- APPLICATION (R14). -/
  | application
  /-- ACCEPTED_REPORT (R76): the owner on the path takes the ACCEPTED report that waits there. -/
  | acceptedReport (path : ReportPath)
  /-- WITHDRAWN_REPORT (R79): the owner on the path takes the WITHDRAWN report that waits there. -/
  | withdrawnReport (path : ReportPath)
  /-- REPLAY_STEP (R126). -/
  | replayStep
  /-- LISTEN_TIMER_EXPIRY (R108). -/
  | listenTimerExpiry
  /-- ASK_TIMER_EXPIRY (R114). -/
  | askTimerExpiry
  /-- STALL_TIMER_EXPIRY (R124, R129). -/
  | stallTimerExpiry
  /-- PRESENCE_TIMER_EXPIRY (R132). -/
  | presenceTimerExpiry
  /-- SILENCE_TIMER_EXPIRY (R137): the timer of the named member. -/
  | silenceTimerExpiry (station : Station)
  /-- HOLDOFF_TIMER_EXPIRY (R147). -/
  | holdoffTimerExpiry
  /-- WAIT_TIMER_EXPIRY (R164): the timer of the named record. -/
  | waitTimerExpiry (record : RecordIndex)
deriving DecidableEq, Repr

end Sys2Proof
end

