-- ==== Sys2Proof/WellFormed.lean ====
section
/-! DEFINITION. Which commands are well formed: every operand is as wide as its character or field
(the types say so), and an unknown command carries a character that names no command (R195). -/

namespace Sys2Proof

/-- The command characters of R195, each naming a command. -/
def commandCharacters : List Byte :=
  [0x10#8, 0x11#8, 0x12#8, 0x13#8, 0x20#8, 0x21#8, 0x22#8, 0x23#8, 0x30#8, 0x31#8, 0x40#8, 0x41#8,
    0x42#8, 0x4F#8]

/-- The check (R195): "Every other command character is an unknown command with no arguments." -/
def Instr.wellFormed : Instr → Bool
  | .unknownCommand c => !commandCharacters.contains c
  | .deviceReset _ _ _ | .transactionOpen | .transactionClose | .portCharacter _
  | .configure _ _ _ _ _ | .defineResource _ _ | .join | .leave | .claim _ _ _ _ | .drop _
  | .readClaim _ _ | .retire _ | .readNotice | .ackNotice _ _ | .readStatus | .readRoster
  | .readResource _ _ | .repeatResponse | .timebaseTick | .startEdge | .attemptStart
  | .characterComplete | .gapExpiry | .lineIdle | .arbitrationLoss | .readbackMismatch
  | .vetoDriveEnd | .breakDriveEnd | .windowClose | .breakTaken | .breakEnd | .lineFault
  | .lineRecovery | .takeCharacter | .takeTruncation | .takeBreak | .windowOpening
  | .windowResult | .handoff | .application | .acceptedReport _ | .withdrawnReport _
  | .replayStep | .listenTimerExpiry | .askTimerExpiry | .stallTimerExpiry
  | .presenceTimerExpiry | .silenceTimerExpiry _ | .holdoffTimerExpiry | .waitTimerExpiry _ => true

end Sys2Proof
end

