-- ==== Sys2Proof/Config.lean ====
section
/-! DEFINITION. The free values: what the manual leaves open and the machine still does. Each is a
constant with no body, applied to the counter `freeCount` of State for a fresh value each time. -/

namespace Sys2Proof

/-- How many filler characters MISO carries before the start character once the answer is ready:
R179 says the number is not fixed (log entry 6). -/
opaque Config.fillerCount : Nat → Nat

/-- Which of the part's events that are due is taken next when no command waits: the manual says
that either may be taken first (sections 0.8, R84, R94, R126, R137, R165; log entry 2). -/
opaque Config.schedule : Nat → Nat

/-- What a header field of a frame reads as when the characters that hold it were lost in an overrun
at a station that does not veto (R87, R88; log entry 7). The second argument is the character's place. -/
opaque Config.missingCharacter : Nat → Nat → Byte

end Sys2Proof
end

