-- ==== Sys2Proof/Machine/State.lean ====
section
/-! DEFINITION. The state of one WZ-340 as plain data, block by block (section 0.3), its value right
after device reset, and the reasons a step could stop (there are none but the host's). -/

namespace Sys2Proof.Machine

/-! ## Frames and characters -/

/-- The nine frame kinds a WZ-340 sends (R37). -/
inductive FrameKind where
  | announce | evict | leave | admission | drop | snapshot | claim | presence | joinAsk
deriving DecidableEq, Repr

/-- A frame as a receiver holds it (R35): the kind and sender characters whole, so that unknown kinds
and bad sender fields (R41) can be seen. -/
structure Frame where
  kind : Byte
  sender : Byte
  tag : Byte
  tseq : Tseq
  body : List Byte
deriving DecidableEq, Repr

/-- A character delivered by the line interface, with its marker level and its marks (R52, R84). -/
structure RxChar where
  value : Byte
  marker : Level
  noise : Bool
  framing : Bool
  overrun : Bool
deriving DecidableEq, Repr

/-! ## Line interface (chapter 3) -/

/-- The eight line-interface states (section 3.9). -/
inductive LineState where
  | idle | contend | sending | receiving | window | settling | breaking | fault
deriving DecidableEq, Repr

/-- The shift stage: the levels of the bits sampled so far, the noise mark (R50), and whether the
start bit has been judged (R51; the station's own start bits need no judging). -/
structure Shift where
  bits : List Level
  noise : Bool
  judged : Bool
deriving DecidableEq, Repr

/-- An item of the receive stream (R52, R84): a character, or a report that takes no FIFO place. -/
inductive StreamItem where
  | char (c : RxChar)
  | truncation
  | lineBreak
  | opening
  | result (clean : Bool)
deriving DecidableEq, Repr

/-- The state of the line interface (table of chapter 3). In `stream` the first four characters are
the receive character FIFO and a fifth is the completed character that waits in the shift stage
(R84); reports stand between them where they were made (R52). -/
structure LineIf where
  state : LineState
  /-- fractional accumulator, 0 to 7 (R49) -/
  acc : Nat
  /-- reference periods of the present bit that have passed; 0 when its first is still to come -/
  bitPos : Nat
  /-- reference periods the present bit lasts: D or D + 1 (R49) -/
  bitLen : Nat
  /-- the samples taken of the present bit, first to last (R50) -/
  samples : List Level
  /-- whether the last reference period was read recessive (R51) -/
  lastRecessive : Bool
  /-- a start edge stands in the last reference period and has not been taken (R51) -/
  edge : Bool
  shift : Option Shift
  stream : List StreamItem
  /-- frame position, 0 for no frame (R53) -/
  framePos : Nat
  /-- received length, from character 6 on (R53) -/
  frameLen : Option Byte
  /-- dominant run count, 0 to 1024 (R61) -/
  dominantRun : Nat
  /-- recessive bit times counted in a gap, in SETTLING, BREAK and FAULT (R54, R55, R61, R62) -/
  recessiveCount : Nat
  /-- settle length, 11 or 33 (R55) -/
  settleLen : Nat
  /-- bit times since the window opened (R59) -/
  windowTimer : Nat
  /-- the station drives its veto (R59) -/
  vetoDriving : Bool
  /-- a veto has been seen in this window (R60) -/
  vetoSeen : Bool
  /-- the window is that of the station's own attempt, reached from SENDING (R60) -/
  windowOwn : Bool
  /-- the station drives a break: the bit times of it driven so far (R58) -/
  breakDrive : Option Nat
  /-- the break begins with the next bit; until then the line is driven at this level (R57, R58) -/
  breakWait : Option Level
  /-- characters of the own frame already sent in this attempt (R57, R58) -/
  txChar : Nat
deriving DecidableEq, Repr

/-- What the wire and the other stations do to LINE in one reference period (R48): nothing pulls it,
another station pulls it dominant, or the station's own drive does not reach it (R57). -/
inductive LineInput where
  | released | pulled | stuck
deriving DecidableEq, Repr

/-! ## Transmitter (chapter 4) -/

/-- The owner of a transmit-queue entry (R64). -/
inductive FrameOwner where
  | claimUnit (record : RecordIndex)
  | controller
deriving DecidableEq, Repr

/-- The state of a transmit-queue entry (R64). -/
inductive EntryState where
  | ready | active
deriving DecidableEq, Repr

/-- An entry of the transmit queue (R64). `lastActive` marks the entry that was last ACTIVE, on whose
failures the attempt counter stands (R77). -/
structure TxEntry where
  kind : FrameKind
  owner : FrameOwner
  body : List Byte
  state : EntryState
  cancel : Bool
  lastActive : Bool
deriving DecidableEq, Repr

/-- A report of the transmitter to an owner (R76). -/
inductive TxReport where
  | accepted (kind : FrameKind) (owner : FrameOwner)
  | withdrawn (kind : FrameKind) (owner : FrameOwner)
deriving DecidableEq, Repr

structure Transmitter where
  queue : List TxEntry
  /-- attempt counter (R77) -/
  attempts : Nat
  /-- the characters of the ACTIVE frame, filled at the start of the attempt (R71, R72) -/
  frame : List Byte
  /-- reports not yet taken by their owners, oldest first (R76) -/
  reports : List TxReport
  /-- the line has become idle while a frame was offered, so the start bit of character 1 is driven,
  and the report of it has not been taken yet (R56, R71; log entry 5) -/
  startReport : Bool
deriving DecidableEq, Repr

/-! ## Receiver (chapter 5) -/

/-- The frame being assembled (R85). Its received length is the value of its sixth character. -/
structure Assembly where
  chars : List RxChar
  overrun : Bool
deriving DecidableEq, Repr

/-- A frame in the inbox: PROVISIONAL or ACCEPTED, with its own-veto flag (R92, R93). -/
structure InboxFrame where
  frame : Frame
  accepted : Bool
  ownVeto : Bool
deriving DecidableEq, Repr

structure Receiver where
  assembly : Option Assembly
  inbox : List InboxFrame
  handoff : Option Frame
  /-- own-veto counter (R91) -/
  ownVetoes : Nat
deriving DecidableEq, Repr

/-! ## Table engine (chapter 1) -/

/-- The condition of the replica (R1). -/
inductive Condition where
  | absent | pending | present
deriving DecidableEq, Repr

/-- The mode of a claim (R8). -/
inductive Mode where
  | exclusive | shared
deriving DecidableEq, Repr

/-- An entry of a claim queue (R8); `granted` is its state, GRANTED or WAITING. -/
structure Entry where
  station : Station
  record : RecordIndex
  mode : Mode
  granted : Bool
deriving DecidableEq, Repr

/-- The replica (section 1.1). P is in units of 10 ms (R3). -/
structure Replica where
  condition : Condition
  tag : Byte
  p : Nat
  k : Nat
  limits : Vector Nat 64
  roster : List Station
  queues : Vector (List Entry) 64
  tseq : Tseq
deriving DecidableEq, Repr

/-! ## Membership controller (chapters 6 and 7) -/

/-- The station states (R103). -/
inductive StationState where
  | offline | listening | founding | asking | catchup | member | leaving | holdoff
deriving DecidableEq, Repr

/-- Why a station left, or failed to join (R144, R146). -/
inductive DetachReason where
  | evicted | left | foreignGroup | diverged | vetoLimit | attemptLimit | catchupFailed | lineFault
  | askFailed
deriving DecidableEq, Repr

/-- A millisecond timer. `running 0` has run out, and its expiry has not been taken yet (R189). -/
inductive Timer where
  | stopped
  | running (left : Nat)
  | frozen (left : Nat)
deriving DecidableEq, Repr

/-- A silence timer that is kept for a member (R134). `running 0` has run out and not been taken. -/
inductive SilenceTimer where
  | running (left : Nat)
  | frozen (left : Nat)
  | expired
deriving DecidableEq, Repr

/-- The donor phase with its joiner (R118, R119). -/
inductive DonorPhase where
  | none
  | admitting (joiner : Station)
  | donating (joiner : Station)
deriving DecidableEq, Repr

/-- The snapshot buffer (R119, R124). `part` is the next part to send at a donor, and the number of
the last part taken at a joiner (0 before the first). -/
structure Snapshot where
  image : List Byte
  tseq : Tseq
  partCount : Nat
  part : Nat
deriving DecidableEq, Repr

/-- The phase of the EVICT in hand (R137). -/
inductive EvictPhase where
  | owed | queued
deriving DecidableEq, Repr

/-- The one EVICT the controller has owed or queued (R137). -/
structure EvictInHand where
  target : Station
  phase : EvictPhase
deriving DecidableEq, Repr

/-- The owed marks of the controller's frames (R67). The owed mark of an EVICT is the phase of the
EVICT in hand. -/
structure Owed where
  leave : Bool
  admission : Bool
  snapshot : Bool
  presence : Bool
  announce : Bool
  joinAsk : Bool
deriving DecidableEq, Repr

structure Controller where
  station : StationState
  /-- working E in ms (R105) -/
  workingE : Nat
  /-- learned E in ms (R107) -/
  learnedE : Option Nat
  listen : Timer
  /-- lowest tag heard (R107) -/
  lowestTag : Option Byte
  askedTag : Byte
  ask : Timer
  askCount : Nat
  /-- founding counter (R110) -/
  founding : Fin 8
  /-- join-ask list (R117) -/
  joinAsks : List Station
  donor : DonorPhase
  snapshot : Snapshot
  /-- the reports still to come for SNAPSHOT parts of ended donations: the model's own count of what R78
  leaves the controller waiting for and R121 gives no effect (log entry 37) -/
  staleParts : Nat
  donorStation : Option Station
  baseTseq : Tseq
  /-- pending-apply queue (R123) -/
  pendingApply : List Frame
  catchupCount : BitVec 16
  /-- catch-up failure flag (R128) -/
  failed : Bool
  stall : Timer
  /-- the installed P, k or a definition differs from the configuration store (R125); that it is false
  before any install, at reset and after a detach, is the model's choice (log entry 40) -/
  configDiffers : Bool
  owed : Owed
  presence : Timer
  silence : Vector (Option SilenceTimer) 32
  /-- eviction list (R137) -/
  evictions : List Station
  evictInHand : Option EvictInHand
  leaveMark : Bool
  /-- line-fault flag (R135) -/
  lineFault : Bool
  holdoff : Timer
  lastDetach : Option DetachReason
deriving DecidableEq, Repr

/-! ## Claim unit (chapter 8) -/

/-- The states of a claim record (R150). -/
inductive RecordState where
  | free | queued | waiting | granted | dropping | done
deriving DecidableEq, Repr

/-- The reasons of a cancel-owed flag (R149). -/
inductive CancelReason where
  | withdrawn | timedOut
deriving DecidableEq, Repr

/-- The drop reasons (R149). -/
inductive DropReason where
  | withdrawn | timedOut | released
deriving DecidableEq, Repr

/-- The outcomes of a claim (R149). -/
inductive ClaimOutcome where
  | released | withdrawn | timedOut | cancelled | refusedUndefined | refusedDuplicate | refusedFull
  | refusedBusy | lost
deriving DecidableEq, Repr

/-- The frame mark of a record: which of its frames the transmit queue holds (R155). -/
inductive FrameMark where
  | none | claim | drop
deriving DecidableEq, Repr

/-- A claim record (R149). `waitTimer` is none when stopped; `some 0` has expired and not been taken. -/
structure ClaimRecord where
  state : RecordState
  slot : Slot
  resource : Resource
  mode : Mode
  noWait : Bool
  waitLimit : BitVec 16
  waitTimer : Option Nat
  cancelOwed : Option CancelReason
  dropReason : Option DropReason
  owedDrop : Bool
  outcome : Option ClaimOutcome
  mark : FrameMark
deriving DecidableEq, Repr

/-! ## Notice queue (chapter 9) -/

/-- What a notice concerns (R170). -/
inductive Subject where
  | slot (n : Slot)
  | joined | detached | rosterChanged | lineFault | lineRestored | configAdopted
deriving DecidableEq, Repr

structure Notice where
  subject : Subject
  /-- change count, 1 to 255 (R171) -/
  count : Nat
  detail : Byte
  /-- saturation mark (R171) -/
  saturated : Bool
deriving DecidableEq, Repr

/-- The notice list, head first, and whether ATTN# is asserted (R170, R176). -/
structure NoticeQueue where
  list : List Notice
  attn : Bool
deriving DecidableEq, Repr

/-! ## Local port (chapter 10) -/

/-- The status of an answer (R183). -/
inductive Status where
  | ok | already | wrongState | badArgument | queueFull | noRecord | duplicate | notActive | stale
  | notHead | empty | unknownCommand
deriving DecidableEq, Repr

/-- The transaction states (R178, R179). -/
inductive Transaction where
  | closed | command | response
deriving DecidableEq, Repr

/-- What the open transaction has to show in RESPONSE (R179, R180): nothing yet, the answer to the
complete command, the answer to the held command, nothing since its command was discarded, or the
characters of a ready answer that are still to be sent. -/
inductive Reply where
  | none
  | awaitsComplete
  | awaitsHeld
  | discarded
  | ready (rest : List Byte)
deriving DecidableEq, Repr

/-- An answer as the last-response buffer keeps it (R182). -/
structure Answer where
  command : Byte
  status : Status
  data : List Byte
deriving DecidableEq, Repr

/-- The configuration store (R186). P is in units of 10 ms. -/
structure ConfigStore where
  d : Nat
  f : Nat
  timebase : Nat
  p : Nat
  k : Nat
  limits : Vector Nat 64
deriving DecidableEq, Repr

structure Port where
  transaction : Transaction
  /-- CS# is low (R178) -/
  csLow : Bool
  buffer : List Byte
  /-- the complete command not yet taken (R180) -/
  complete : Option Instr
  /-- the held command (R180) -/
  held : Option Instr
  reply : Reply
  /-- filler characters that still come before the start character of this answer (R179) -/
  fillers : Nat
  /-- MISO: not driven, or the character driven next (R178, R179) -/
  miso : Option Byte
  last : Option Answer
  /-- station number from SN4 to SN0 (R184) -/
  station : Station
  /-- AUTO strap, true for high (R184) -/
  auto : Bool
  store : ConfigStore
deriving DecidableEq, Repr

/-! ## The whole station -/

/-- The whole state. `pending` is the queue of commands that wait; `lineIn` and `freeCount` are the
model's own (log entries 2 and 3). -/
structure State where
  pending : List Instr
  line : LineIf
  tx : Transmitter
  rx : Receiver
  table : Replica
  ctrl : Controller
  records : Vector ClaimRecord 32
  notices : NoticeQueue
  port : Port
  /-- reference periods counted by the timebase (R189) -/
  timebase : Nat
  /-- what the outside does to LINE in the coming reference periods; nothing pulls it after the last -/
  lineIn : List LineInput
  /-- how many free values have been drawn -/
  freeCount : Nat
deriving DecidableEq, Repr

/-- The faults of the machine: none, since the part has no fault that stops it (section 0.3.2: "The
part has no error register"). Raised by nothing; safe. -/
inductive Fault : Type
deriving DecidableEq, Repr

/-- The refusals of the machine. -/
inductive Refusal where
  /-- Raised only by an arm of `exec` that has no meaning yet; safe. No arm raises it. -/
  | notModelled (mnemonic : String)
deriving DecidableEq, Repr

/-! ## Reset values -/

/-- R63. The bit being timed has not begun, and no period has been read recessive (log entry 4). -/
def LineIf.reset : LineIf :=
  { state := .settling, acc := 0, bitPos := 0, bitLen := 0, samples := [], lastRecessive := false,
    edge := false, shift := none, stream := [], framePos := 0, frameLen := none, dominantRun := 0,
    recessiveCount := 0, settleLen := 11, windowTimer := 0, vetoDriving := false, vetoSeen := false,
    windowOwn := false, breakDrive := none, breakWait := none, txChar := 0 }

/-- R65, and the values after every flush (R80). -/
def Transmitter.empty : Transmitter :=
  { queue := [], attempts := 0, frame := [], reports := [], startReport := false }

/-- R83. -/
def Receiver.reset : Receiver := { assembly := none, inbox := [], handoff := none, ownVetoes := 0 }

/-- R26: the device-reset values, which are the ABSENT values. -/
def Replica.absent : Replica :=
  { condition := .absent, tag := 0, p := 10, k := 5, limits := Vector.replicate 64 1, roster := [],
    queues := Vector.replicate 64 [], tseq := 0 }

/-- No frame of the controller is owed (R65). -/
def Owed.none : Owed :=
  { leave := false, admission := false, snapshot := false, presence := false, announce := false,
    joinAsk := false }

/-- R104: the snapshot buffer empty. -/
def Snapshot.empty : Snapshot := { image := [], tseq := 0, partCount := 0, part := 0 }

/-- R104 and R131; the working E is the own E of the reset store, 5 times 100 ms. -/
def Controller.reset : Controller :=
  { station := .offline, workingE := 500, learnedE := none, listen := .stopped, lowestTag := none,
    askedTag := 0, ask := .stopped, askCount := 0, founding := 0, joinAsks := [], donor := .none,
    snapshot := .empty, staleParts := 0, donorStation := none, baseTseq := 0, pendingApply := [],
    catchupCount := 0, failed := false, stall := .stopped, configDiffers := false, owed := .none,
    presence := .stopped, silence := Vector.replicate 32 none, evictions := [], evictInHand := none,
    leaveMark := false, lineFault := false, holdoff := .stopped, lastDetach := none }

/-- R151: a FREE record with the given frame mark; the fields that hold no value are 0, SHARED and
none (log entry 9). -/
def ClaimRecord.freed (mark : FrameMark) : ClaimRecord :=
  { state := .free, slot := 0, resource := 0, mode := .shared, noWait := false, waitLimit := 0,
    waitTimer := none, cancelOwed := none, dropReason := none, owedDrop := false, outcome := none,
    mark := mark }

/-- R170: the list empty and ATTN# released. -/
def NoticeQueue.reset : NoticeQueue := { list := [], attn := false }

/-- R186. -/
def ConfigStore.reset : ConfigStore :=
  { d := 16, f := 0, timebase := 1000, p := 10, k := 5, limits := Vector.replicate 64 1 }

/-- R178, R182, R184, R186: the port after device reset with the strap values and the level of CS#
found at the release. -/
def Port.reset (station : Station) (auto csLow : Bool) : Port :=
  { transaction := .closed, csLow := csLow, buffer := [], complete := none, held := none,
    reply := .none, fillers := 0, miso := none, last := none, station := station, auto := auto,
    store := .reset }

/-- Device reset before any AUTO start (R26, R63, R65, R83, R104, R131, R151, R170, R178, R189): every
block at its device-reset value. The commands that wait, the outside of the line and the counter of
free values are not the part's. -/
def State.deviceReset (station : Station) (auto csLow : Bool) (s : State) : State :=
  { pending := s.pending, line := .reset, tx := .empty, rx := .reset, table := .absent,
    ctrl := .reset, records := Vector.replicate 32 (.freed .none), notices := .reset,
    port := .reset station auto csLow, timebase := 0, lineIn := s.lineIn, freeCount := s.freeCount }

/-- The machine right after reset: no command waits, the straps read station 0 with AUTO low, and CS#
is high (log entry 10). -/
def State.reset : State :=
  { pending := [], line := .reset, tx := .empty, rx := .reset, table := .absent,
    ctrl := .reset, records := Vector.replicate 32 (.freed .none), notices := .reset,
    port := .reset 0 false false, timebase := 0, lineIn := [], freeCount := 0 }

end Sys2Proof.Machine
end

