-- ==== Sys2Proof/Machine/Operands.lean ====
section
/-! DEFINITION. How characters are read as operands: byte order, numbers in range, the flags of a
CLAIM, and the local port's reading of its command buffer (R44, R179, R195, R196). -/

namespace Sys2Proof.Machine

/-- A two-character value, low character first (R35, R195). -/
def word16 (low high : Byte) : BitVec 16 := high ++ low

def lowByte (w : BitVec 16) : Byte := w.extractLsb' 0 8

def highByte (w : BitVec 16) : Byte := w.extractLsb' 8 8

/-- A count or number as the value of a character. -/
def byteOf (n : Nat) : Byte := BitVec.ofNat 8 n

/-- The station a character names, if its value is 0 to 31 (R15, R43). -/
def stationOf (c : Byte) : Option Station :=
  if h : c.toNat < 32 then some ⟨c.toNat, h⟩ else none

/-- The record index a character names, if its value is 0 to 31 (R15, R196). -/
def recordOf (c : Byte) : Option RecordIndex :=
  if h : c.toNat < 32 then some ⟨c.toNat, h⟩ else none

/-- The resource a character names, if its value is 0 to 63 (R15, R194). -/
def resourceOf (c : Byte) : Option Resource :=
  if h : c.toNat < 64 then some ⟨c.toNat, h⟩ else none

/-- The client slot a character names, if its value is 0 to 7 (R153). -/
def slotOf (c : Byte) : Option Slot :=
  if h : c.toNat < 8 then some ⟨c.toNat, h⟩ else none

/-- Data bit 0 of a flags character: 1 for EXCLUSIVE, 0 for SHARED (R44, R196). -/
def modeOfFlags (flags : Byte) : Mode := if flags.getLsbD 0 then .exclusive else .shared

/-- Data bit 1 of a flags character: the no-wait flag (R44, R196). -/
def noWaitOfFlags (flags : Byte) : Bool := flags.getLsbD 1

/-- The flags character of a CLAIM frame (R44). -/
def claimFlags (mode : Mode) (noWait : Bool) : Byte :=
  (if mode = .exclusive then 1 else 0) ||| (if noWait then 2 else 0)

/-- How many argument characters follow a command character; none for one that names no command
(R179, R195). -/
def argumentCount (c : Byte) : Option Nat :=
  if c = 0x10 then some 7
  else if c = 0x11 then some 2
  else if c = 0x12 then some 0
  else if c = 0x13 then some 0
  else if c = 0x20 then some 5
  else if c = 0x21 then some 1
  else if c = 0x22 then some 2
  else if c = 0x23 then some 1
  else if c = 0x30 then some 0
  else if c = 0x31 then some 2
  else if c = 0x40 then some 0
  else if c = 0x41 then some 0
  else if c = 0x42 then some 2
  else if c = 0x4F then some 0
  else none

/-- The command that a complete command buffer holds (R195), or none while arguments are missing. -/
def parseCommand (buffer : List Byte) : Option Instr :=
  match buffer with
  | [] => none
  | c :: args =>
    if c = 0x10 then
      match args with
      | [dl, dh, f, tl, th, p, k] => some (.configure (word16 dl dh) f (word16 tl th) p k)
      | _ => none
    else if c = 0x11 then
      match args with
      | [r, l] => some (.defineResource r l)
      | _ => none
    else if c = 0x12 then some .join
    else if c = 0x13 then some .leave
    else if c = 0x20 then
      match args with
      | [s, r, f, wl, wh] => some (.claim s r f (word16 wl wh))
      | _ => none
    else if c = 0x21 then
      match args with
      | [k] => some (.drop k)
      | _ => none
    else if c = 0x22 then
      match args with
      | [k, o] => some (.readClaim k o)
      | _ => none
    else if c = 0x23 then
      match args with
      | [k] => some (.retire k)
      | _ => none
    else if c = 0x30 then some .readNotice
    else if c = 0x31 then
      match args with
      | [s, n] => some (.ackNotice s n)
      | _ => none
    else if c = 0x40 then some .readStatus
    else if c = 0x41 then some .readRoster
    else if c = 0x42 then
      match args with
      | [r, p] => some (.readResource r p)
      | _ => none
    else if c = 0x4F then some .repeatResponse
    else some (.unknownCommand c)

end Sys2Proof.Machine
end

