-- ==== Sys2Proof/Machine/Flags.lean ====
section
/-! DEFINITION. The codes of the local port's answers: statuses, states, reasons, subjects and the
bit fields of the read commands (R183, R192, R194, R196). -/

namespace Sys2Proof.Machine

/-- R183. -/
def Status.code : Status → Byte
  | .ok => 0x01
  | .already => 0x02
  | .wrongState => 0x03
  | .badArgument => 0x04
  | .queueFull => 0x05
  | .noRecord => 0x06
  | .duplicate => 0x07
  | .notActive => 0x08
  | .stale => 0x09
  | .notHead => 0x0A
  | .empty => 0x0B
  | .unknownCommand => 0x0C

/-- The code table of section 10.8 (R196). -/
def StationState.code : StationState → Byte
  | .offline => 0
  | .listening => 1
  | .founding => 2
  | .asking => 3
  | .catchup => 4
  | .member => 5
  | .leaving => 6
  | .holdoff => 7

/-- The code table of section 10.8 (R196). -/
def DetachReason.code : DetachReason → Byte
  | .evicted => 1
  | .left => 2
  | .foreignGroup => 3
  | .diverged => 4
  | .vetoLimit => 5
  | .attemptLimit => 6
  | .catchupFailed => 7
  | .lineFault => 8
  | .askFailed => 9

/-- The code table of section 10.8 (R196). -/
def LineState.code : LineState → Byte
  | .idle => 0
  | .contend => 1
  | .sending => 2
  | .receiving => 3
  | .window => 4
  | .settling => 5
  | .breaking => 6
  | .fault => 7

/-- The record states of the READ-CLAIM answer (R196). -/
def RecordState.code : RecordState → Byte
  | .free => 0
  | .queued => 1
  | .waiting => 2
  | .granted => 3
  | .dropping => 4
  | .done => 5

/-- R196: reasons and outcomes share one code. -/
def ClaimOutcome.code : ClaimOutcome → Byte
  | .released => 1
  | .withdrawn => 2
  | .timedOut => 3
  | .cancelled => 4
  | .refusedUndefined => 5
  | .refusedDuplicate => 6
  | .refusedFull => 7
  | .refusedBusy => 8
  | .lost => 9

/-- The drop reasons give the outcomes of the same names (R160). -/
def DropReason.outcome : DropReason → ClaimOutcome
  | .withdrawn => .withdrawn
  | .timedOut => .timedOut
  | .released => .released

/-- The drop reason of a claim dropped for a cancel-owed reason (R158). -/
def CancelReason.dropReason : CancelReason → DropReason
  | .withdrawn => .withdrawn
  | .timedOut => .timedOut

/-- The outcome of a claim whose frame never reached the table (R162, R164). -/
def CancelReason.outcome : CancelReason → ClaimOutcome
  | .withdrawn => .cancelled
  | .timedOut => .timedOut

/-- The subject character of a notice (R196). -/
def Subject.code : Subject → Byte
  | .slot n => byteOf n.val
  | .joined => 0x10
  | .detached => 0x11
  | .rosterChanged => 0x12
  | .lineFault => 0x13
  | .lineRestored => 0x14
  | .configAdopted => 0x15

/-- The subject a character names, if it names one (R174, R196). -/
def subjectOf (c : Byte) : Option Subject :=
  match slotOf c with
  | some n => some (.slot n)
  | none =>
    if c = 0x10 then some .joined
    else if c = 0x11 then some .detached
    else if c = 0x12 then some .rosterChanged
    else if c = 0x13 then some .lineFault
    else if c = 0x14 then some .lineRestored
    else if c = 0x15 then some .configAdopted
    else none

/-- A flag as bit `i` of a character. -/
def bitFlag (i : Nat) (b : Bool) : Byte := if b then (1 : Byte) <<< i else 0

/-- Data character 5 of the READ-CLAIM answer (R196). -/
def claimFlagsChar (r : ClaimRecord) (retired : Bool) : Byte :=
  bitFlag 0 (decide (r.state ≠ .free) && decide (r.mode = .exclusive))
    ||| bitFlag 1 (decide (r.state ≠ .free) && r.noWait)
    ||| bitFlag 2 (decide (r.mark ≠ .none)) ||| bitFlag 3 retired
    ||| bitFlag 4 (decide (r.state = .queued) && r.cancelOwed.isSome)

/-- Data character 10 of the READ-CLAIM answer: reason or outcome, by the record's state (R196). -/
def claimReasonChar (r : ClaimRecord) : Byte :=
  match r.state with
  | .queued => (r.cancelOwed.map fun c => c.dropReason.outcome.code).getD 0
  | .dropping => (r.dropReason.map fun d => d.outcome.code).getD 0
  | .done => (r.outcome.map ClaimOutcome.code).getD 0
  | .free | .waiting | .granted => 0

/-- The ten data characters of a READ-CLAIM answer (R196). -/
def claimData (k : RecordIndex) (r : ClaimRecord) (retired : Bool) : List Byte :=
  let given : Bool := decide (r.state ≠ .free)
  let left : BitVec 16 := BitVec.ofNat 16 (r.waitTimer.getD 0)
  [ byteOf k.val, r.state.code,
    if given then byteOf r.slot.val else 0,
    if given then byteOf r.resource.val else 0,
    claimFlagsChar r retired,
    if given then lowByte r.waitLimit else 0,
    if given then highByte r.waitLimit else 0,
    if given then lowByte left else 0,
    if given then highByte left else 0,
    claimReasonChar r ]

/-- One entry of a READ-RESOURCE answer (R194). -/
def entryData (e : Entry) : List Byte :=
  [ byteOf e.station.val,
    byteOf e.record.val ||| bitFlag 6 e.granted ||| bitFlag 7 (decide (e.mode = .exclusive)),
    0 ]

end Sys2Proof.Machine
end

