-- ==== Sys2Proof/Machine/Frames.lean ====
section
/-! DEFINITION. Line frames (chapter 2): kinds and classes, the check, the layout of a frame and of
its bodies, and the snapshot image with its checks. -/

namespace Sys2Proof.Machine

/-! ## Kinds and classes (R37) -/

/-- The kind character (R37). -/
def FrameKind.char : FrameKind → Byte
  | .announce => 0x00
  | .evict => 0x20
  | .leave => 0x10
  | .admission => 0x30
  | .drop => 0x02
  | .snapshot => 0x22
  | .claim => 0x01
  | .presence => 0x03
  | .joinAsk => 0x23

/-- The kind a kind character holds; none for an unknown kind (R37). -/
def kindOf (c : Byte) : Option FrameKind :=
  if c = 0x00 then some .announce
  else if c = 0x20 then some .evict
  else if c = 0x10 then some .leave
  else if c = 0x30 then some .admission
  else if c = 0x02 then some .drop
  else if c = 0x22 then some .snapshot
  else if c = 0x01 then some .claim
  else if c = 0x03 then some .presence
  else if c = 0x23 then some .joinAsk
  else none

/-- The sequenced kinds (R40). -/
def FrameKind.sequenced : FrameKind → Bool
  | .admission | .evict | .leave | .drop | .claim => true
  | .announce | .snapshot | .joinAsk | .presence => false

/-- The place of the kind's class in arbitration: URGENT 0, RELEASE 1, CLAIM 2, ROUTINE 3 (R37, R38). -/
def FrameKind.rank : FrameKind → Nat
  | .announce | .evict | .leave | .admission => 0
  | .drop | .snapshot => 1
  | .claim => 2
  | .presence | .joinAsk => 3

/-- The kind and sender of a frame that is not discarded by R41: a known kind, and a sender
character with data bits 5 to 7 zero. -/
def Frame.known (f : Frame) : Option (FrameKind × Station) :=
  match kindOf f.kind, stationOf f.sender with
  | some k, some s => some (k, s)
  | _, _ => none

/-- The frame is of a sequenced kind (R40, R41). -/
def Frame.isSequenced (f : Frame) : Bool :=
  match f.known with
  | some (k, _) => k.sequenced
  | none => false

/-! ## The check (R42) -/

/-- One data bit through the check register (R42). -/
def checkBit (r : BitVec 16) (b : Bool) : BitVec 16 :=
  let feedback := b != r.getLsbD 15
  let shifted := r <<< 1
  if feedback then shifted ^^^ 0x1021 else shifted

/-- One character through the check register, data bit 0 first (R42). -/
def checkByte (r : BitVec 16) (c : Byte) : BitVec 16 :=
  [0, 1, 2, 3, 4, 5, 6, 7].foldl (fun acc i => checkBit acc (c.getLsbD i)) r

/-- The check over the given characters (R42). -/
def frameCheck (chars : List Byte) : BitVec 16 := chars.foldl checkByte 0xFFFF

/-! ## Frame layout (R35, R36) -/

/-- The characters of a frame (R35). -/
def frameChars (kind : FrameKind) (sender : Station) (tag : Byte) (tseq : Tseq) (body : List Byte) :
    List Byte :=
  let head := kind.char :: byteOf sender.val :: tag :: lowByte tseq :: highByte tseq
    :: byteOf body.length :: body
  head ++ [lowByte (frameCheck head), highByte (frameCheck head)]

/-- The number of characters a frame has for a received length (R36). -/
def frameLength (length : Byte) : Nat := if length.toNat ≤ 24 then 8 + length.toNat else 8

/-- The level of bit `i` (0 for the start bit) of a character, `first` for character 1 of a frame (R34). -/
def charBit (value : Byte) (first : Bool) (i : Nat) : Level :=
  if i = 0 then .dominant
  else if i ≤ 8 then (if value.getLsbD (i - 1) then .recessive else .dominant)
  else if i = 9 then (if first then .recessive else .dominant)
  else .recessive

/-- The value of the 8 data bits of a character's sampled levels (R34, R52). -/
def dataValue (bits : List Level) : Byte :=
  (bits.drop 1).take 8 |>.foldr (fun l acc => (acc <<< 1) ||| bitOf l) 0
where
  bitOf (l : Level) : Byte := if l = .recessive then 1 else 0

/-! ## The assembled frame (R85, R87, R89) -/

/-- The received length, once character 6 has been taken (R85). -/
def Assembly.length (a : Assembly) : Option Byte := (a.chars[5]?).map RxChar.value

/-- The assembled characters fall short of what R36 requires for the received length (R87). -/
def Assembly.short (a : Assembly) : Bool :=
  match a.length with
  | none => true
  | some l => decide (a.chars.length < frameLength l)

/-- The characters that the check covers and the two check characters agree (R42, R89): characters 1
to 6 + L, or 1 to 6 for a malformed length. -/
def Assembly.checkPasses (a : Assembly) : Bool :=
  match a.length with
  | none => false
  | some l =>
    let n := frameLength l - 2
    let vals := a.chars.map RxChar.value
    let check := frameCheck (vals.take n)
    decide (vals[n]? = some (lowByte check)) && decide (vals[n + 1]? = some (highByte check))

/-- The frame that the receiver holds at the opening (R87). Every character is read at its place, and a
header or body character that was lost reads as the free value of its place (log entry 7); a malformed
frame has no body. -/
def Assembly.frame (a : Assembly) (missing : Nat → Byte) : Frame :=
  let vals := a.chars.map RxChar.value
  let at' (i : Nat) : Byte := (vals[i]?).getD (missing i)
  let body := match a.length with
    | none => []
    | some l => if l.toNat ≤ 24 then (List.range l.toNat).map fun i => at' (6 + i) else []
  { kind := at' 0, sender := at' 1, tag := at' 2, tseq := word16 (at' 3) (at' 4), body := body }

/-! ## Bodies (R43 to R45) -/

/-- P and k of an ANNOUNCE that carries group parameters (R43). -/
def announceParameters (body : List Byte) : Option (Nat × Nat) :=
  match body with
  | p :: k :: _ =>
    if p.toNat ≠ 0 ∧ 3 ≤ k.toNat ∧ k.toNat ≤ 15 then some (p.toNat, k.toNat) else none
  | _ => none

/-- E in ms for P in units of 10 ms and k (R3). -/
def evictionTimeout (p k : Nat) : Nat := k * (p * 10)

/-- A SNAPSHOT body holds 6 characters or more, so it carries a part (R45). -/
def carriesPart (body : List Byte) : Bool := decide (6 ≤ body.length)

/-! ## The snapshot image (R46, R47) -/

/-- The three characters of an entry of an image (R46). -/
def imageEntry (r : Nat) (e : Entry) : List Byte :=
  [byteOf r, byteOf e.station.val,
    byteOf e.record.val ||| (if e.mode = .exclusive then 0x80 else 0)]

/-- The entries of all queues, resource by resource, each with its resource (R22, R46). -/
def Replica.entryList (t : Replica) : List (Resource × Entry) :=
  (List.finRange 64).flatMap fun r => t.queues[r].map fun e => (r, e)

/-- The number of entries in use (R8). -/
def Replica.entriesUsed (t : Replica) : Nat := (t.queues.toList.map List.length).sum

/-- The image of a replica (R22, R46). -/
def Replica.image (t : Replica) : List Byte :=
  [byteOf t.p, byteOf t.k] ++ t.limits.toList.map byteOf
    ++ byteOf t.roster.length :: t.roster.map (fun s => byteOf s.val)
    ++ byteOf t.entriesUsed :: t.entryList.flatMap (fun x => imageEntry x.1.val x.2)

/-- The number of parts an image is cut into (R47): its length divided by 19, rounded up. -/
def imagePartCount (image : List Byte) : Nat := (image.length + 18) / 19

/-- The image characters of part `p`, numbered from 1 (R47). -/
def imagePart (image : List Byte) (p : Nat) : List Byte := (image.drop (19 * (p - 1))).take 19

/-- An image that has been read from its characters (R46). -/
structure ImageData where
  p : Nat
  k : Nat
  limits : Vector Nat 64
  roster : List Station
  entries : List (Resource × Entry)
deriving DecidableEq, Repr

/-- The entries that the characters spell, three at a time (R46); none if a resource is not 0 to 63
or a station not 0 to 31. Data bits 5 and 6 of the third character are not read (log entry 23). -/
def readEntries : List Byte → Option (List (Resource × Entry))
  | r :: s :: x :: rest =>
    match resourceOf r, stationOf s, readEntries rest with
    | some r', some s', some es =>
      some ((r', { station := s', record := ⟨x.toNat % 32, Nat.mod_lt _ (by decide)⟩,
                   mode := if x.getLsbD 7 then .exclusive else .shared, granted := false }) :: es)
    | _, _, _ => none
  | [] => some []
  | _ => none

/-- The fields of an image string, if its length agrees with the counts it holds (R46, R47) and every
station and resource number is in range. -/
def readImage (image : List Byte) : Option ImageData :=
  let vals := image.map BitVec.toNat
  let n := (vals[66]?).getD 0
  let e := (vals[67 + n]?).getD 0
  if image.length = 68 + n + 3 * e then
    match ((image.drop 67).take n).mapM stationOf, readEntries (image.drop (68 + n)) with
    | some roster, some entries =>
      some { p := (vals[0]?).getD 0, k := (vals[1]?).getD 0,
             limits := Vector.ofFn fun r => (vals[2 + r.val]?).getD 0,
             roster := roster, entries := entries }
    | _, _ => none
  else none

/-- Conditions 2 to 7 of R29 on an image, for the own station. -/
def ImageData.valid (own : Station) (i : ImageData) : Bool :=
  decide (1 ≤ i.p ∧ i.p ≤ 255 ∧ 3 ≤ i.k ∧ i.k ≤ 15)
    && i.limits.toList.all (fun l => decide (l ≤ 16))
    && decide (1 ≤ i.roster.length ∧ i.roster.length ≤ 32) && decide i.roster.Nodup
    && decide (own ∈ i.roster)
    && decide (i.entries.length ≤ 128)
    && i.entries.all (fun x =>
      decide (1 ≤ i.limits[x.1] ∧ i.limits[x.1] ≤ 16) && decide (x.2.station ∈ i.roster)
        && decide (x.2.station ≠ own))
    && decide (i.entries.map (fun x => (x.2.station, x.2.record))).Nodup

end Sys2Proof.Machine
end

