-- ==== Sys2Proof/Machine/Table.lean ====
section
/-! DEFINITION. The table engine (chapter 1): the grant rule, the application of each sequenced frame
kind with its reports, and the changes of the replica's condition. -/

namespace Sys2Proof.Machine

/-! ## Reports (R7, R22, R23) -/

/-- How a member was removed (R7). -/
inductive Removal where
  | evicted | left
deriving DecidableEq, Repr

/-- What a report to the claim unit says (R23). -/
inductive ClaimNews where
  | insertedWaiting
  | insertedGranted
  | refused (outcome : ClaimOutcome)
  | promoted
  | removed
  | dropNoEntry
deriving DecidableEq, Repr

/-- A report of an application: to the claim unit, with the resource and record index that it names
(R23), or to the membership controller (R7, R22). -/
inductive TableReport where
  | claim (resource record : Byte) (news : ClaimNews)
  | memberAdded (j : Station)
  | memberRemoved (x : Station) (how : Removal)
  | ownRemoved (how : Removal)
  | admitResult (effect : Bool)
deriving DecidableEq, Repr

/-! ## The grant rule (section 1.5) -/

/-- The length of the granted prefix of a queue under a shared limit (R11). -/
def grantCount (limit : Nat) (q : List Entry) : Nat :=
  match q with
  | [] => 0
  | h :: _ =>
    match h.mode with
    | .exclusive => 1
    | .shared => min (q.takeWhile fun e => decide (e.mode = .shared)).length limit

/-- The first `n` entries of a queue set to GRANTED and the others to WAITING (R12). -/
def grantFirst : Nat → List Entry → List Entry
  | _, [] => []
  | 0, e :: q => { e with granted := false } :: grantFirst 0 q
  | n + 1, e :: q => { e with granted := true } :: grantFirst n q

/-- The grants of a queue recomputed (R12). -/
def regrant (limit : Nat) (q : List Entry) : List Entry := grantFirst (grantCount limit q) q

/-- The grant-on-insertion test (R13). -/
def grantOnInsertion (limit : Nat) (q : List Entry) (m : Mode) : Bool :=
  q.isEmpty || (decide (m = .shared) && q.all (fun e => decide (e.mode = .shared) && e.granted)
    && decide (q.length < limit))

/-! ## Parts of an application -/

/-- An entry with this station and record index stands in some queue (R16, check 2). -/
def Replica.holds (t : Replica) (s : Station) (k : RecordIndex) : Bool :=
  t.queues.toList.any fun q => q.any fun e => decide (e.station = s) && decide (e.record = k)

/-- The entries of the own station that are granted in `new` and were waiting in `old`, as PROMOTED
reports in queue order (R12, R23, R24). -/
def promotions (own : Station) (r : Resource) (old new : List Entry) : List TableReport :=
  (new.filter fun e => decide (e.station = own) && e.granted
      && old.any (fun o => decide (o.station = e.station) && decide (o.record = e.record) && !o.granted)).map
    fun e => .claim (byteOf r.val) (byteOf e.record.val) .promoted

/-- The TSEQ step of an application (R10). -/
def Replica.advance (t : Replica) : Replica := { t with tseq := t.tseq + 1 }

/-- A report about the own station's claim, and no report about another's (R23). -/
def ownReport (own s : Station) (r k : Byte) (news : ClaimNews) : List TableReport :=
  if s = own then [.claim r k news] else []

/-- The outcome of a CLAIM's checks, in the order of R16: none when all four pass. -/
def Replica.claimRefusal (t : Replica) (s : Station) (r : Option Resource) (k : Option RecordIndex)
    (m : Mode) (noWait : Bool) : Option ClaimOutcome :=
  match r, k with
  | some r, some k =>
    if ¬(1 ≤ t.limits[r] ∧ t.limits[r] ≤ 16) then some .refusedUndefined
    else if t.holds s k then some .refusedDuplicate
    else if 128 ≤ t.entriesUsed then some .refusedFull
    else if noWait && !grantOnInsertion t.limits[r] t.queues[r] m then some .refusedBusy
    else none
  | _, _ => some .refusedUndefined

/-- The application of a CLAIM (R16, R17). -/
def Replica.applyClaim (own s : Station) (rc kc flags : Byte) (t : Replica) :
    Replica × List TableReport :=
  let m := modeOfFlags flags
  match t.claimRefusal s (resourceOf rc) (recordOf kc) m (noWaitOfFlags flags) with
  | some o => (t.advance, ownReport own s rc kc (.refused o))
  | none =>
    match resourceOf rc, recordOf kc with
    | some r, some k =>
      let q := regrant t.limits[r]
        (t.queues[r] ++ [{ station := s, record := k, mode := m, granted := false }])
      let granted := (q.getLast?.map Entry.granted).getD false
      ({ t.advance with queues := t.queues.set r q },
        ownReport own s rc kc (if granted then .insertedGranted else .insertedWaiting))
    | _, _ => (t.advance, [])

/-- The application of a DROP (R18). -/
def Replica.applyDrop (own s : Station) (rc kc : Byte) (t : Replica) : Replica × List TableReport :=
  match resourceOf rc, recordOf kc with
  | some r, some k =>
    let named (e : Entry) : Bool := decide (e.station = s) && decide (e.record = k)
    let old := t.queues[r]
    if old.any named then
      let new := regrant t.limits[r] (old.filter fun e => !named e)
      ({ t.advance with queues := t.queues.set r new },
        ownReport own s rc kc .removed ++ promotions own r old new)
    else (t.advance, ownReport own s rc kc .dropNoEntry)
  | _, _ => (t.advance, ownReport own s rc kc .dropNoEntry)

/-- A queue without the entries of a station, its grants recomputed if it lost one (R19). -/
def dropStation (x : Station) (limit : Nat) (q : List Entry) : List Entry :=
  if q.any (fun e => decide (e.station = x)) then
    regrant limit (q.filter fun e => decide (e.station ≠ x))
  else q

/-- The removal of a member other than the own station (R19, R21). -/
def Replica.removeMember (own x : Station) (how : Removal) (t : Replica) :
    Replica × List TableReport :=
  if x ∈ t.roster then
    let new : Vector (List Entry) 64 := Vector.ofFn fun r => dropStation x t.limits[r] t.queues[r]
    ({ t.advance with roster := t.roster.filter (fun s => decide (s ≠ x)), queues := new },
      .memberRemoved x how
        :: (List.finRange 64).flatMap fun r => promotions own r t.queues[r] new[r])
  else (t.advance, [])

/-- The application of an EVICT of `x`, or of a LEAVE from it (R19, R20, R21). The removal of the own
station ends in the clear. -/
def Replica.applyRemoval (own x : Station) (how : Removal) (t : Replica) :
    Replica × List TableReport :=
  if x = own then (.absent, [.ownRemoved how]) else t.removeMember own x how

/-- The application of an ADMIT (R22). -/
def Replica.applyAdmit (own s : Station) (jc : Byte) (t : Replica) : Replica × List TableReport :=
  let result (effect : Bool) : List TableReport := if s = own then [.admitResult effect] else []
  match stationOf jc with
  | some j =>
    if j ∉ t.roster ∧ t.roster.length < 32 then
      ({ t.advance with roster := t.roster ++ [j] }, .memberAdded j :: result true)
    else (t.advance, result false)
  | none => (t.advance, result false)

/-- One application of a sequenced frame in PRESENT: the replica after it and its reports in order
(R14 to R22, R24). A short body has no effect but the TSEQ step (R15). -/
def Replica.apply (own : Station) (f : Frame) (t : Replica) : Replica × List TableReport :=
  match f.known with
  | some (.claim, s) =>
    match f.body with
    | r :: k :: flags :: _ => t.applyClaim own s r k flags
    | _ => (t.advance, [])
  | some (.drop, s) =>
    match f.body with
    | r :: k :: _ => t.applyDrop own s r k
    | _ => (t.advance, [])
  | some (.evict, _) =>
    match f.body with
    | x :: _ =>
      match stationOf x with
      | some x => t.applyRemoval own x .evicted
      | none => (t.advance, [])
    | _ => (t.advance, [])
  | some (.leave, s) => t.applyRemoval own s .left
  | some (.admission, s) =>
    match f.body with
    | j :: _ => t.applyAdmit own s j
    | _ => (t.advance, [])
  | some (.announce, _) | some (.snapshot, _) | some (.presence, _) | some (.joinAsk, _) | none =>
    (t, [])

/-! ## Changes of condition (section 1.8) -/

/-- The founding request (R28); not taken unless the replica is ABSENT (R1). -/
def Replica.found (own : Station) (tag : Byte) (c : ConfigStore) (t : Replica) : Replica :=
  if t.condition = .absent then
    { condition := .present, tag := tag, p := c.p, k := c.k, limits := c.limits, roster := [own],
      queues := Vector.replicate 64 [], tseq := 0 }
  else t

/-- The catch-up opening request (R27); not taken unless the replica is ABSENT (R1). -/
def Replica.openCatchup (own : Station) (tag : Byte) (base : Tseq) (t : Replica) : Replica :=
  if t.condition = .absent then
    { t with condition := .pending, tag := tag, roster := [own], tseq := base }
  else t

/-- The entries of one resource in an image, in order, as a queue with its grants (R30). -/
def imageQueue (i : ImageData) (r : Resource) : List Entry :=
  regrant i.limits[r] ((i.entries.filter fun x => decide (x.1 = r)).map Prod.snd)

/-- The install request (R29, R30): none when the image is refused or the replica is not PENDING. -/
def Replica.install (own : Station) (image : List Byte) (tseq : Tseq) (t : Replica) :
    Option Replica :=
  if t.condition = .pending ∧ tseq = t.tseq then
    match readImage image with
    | some i =>
      if i.valid own then
        some { t with condition := .present, p := i.p, k := i.k, limits := i.limits,
                      roster := i.roster, queues := Vector.ofFn fun r => imageQueue i r }
      else none
    | none => none
  else none

/-! ## Reading the replica (R6, R33) -/

/-- The station stands before the own station in the roster (R6). -/
def Replica.senior (t : Replica) (own s : Station) : Bool :=
  decide (s ∈ t.roster) && decide (own ∈ t.roster)
    && decide (t.roster.idxOf s < t.roster.idxOf own)

/-- The own station stands before the station in the roster (R6). -/
def Replica.junior (t : Replica) (own s : Station) : Bool := t.senior s own

/-- The station is the head of the roster (R6, R117). -/
def Replica.isHead (t : Replica) (s : Station) : Bool := decide (t.roster.head? = some s)

end Sys2Proof.Machine
end

