-- ==== Sys2Proof/Machine/Ops.lean ====
section
/-! DEFINITION. The shared operations: updates of one block, posting of notices, the transmit queue
with its owed frames and cancellations, claim records, the line interface's breaks, timers, and the
detach. Every meaning is made of these. -/

namespace Sys2Proof.Machine

/-! ## Updates of one block -/

def State.mapLine (f : LineIf → LineIf) (s : State) : State := { s with line := f s.line }

def State.mapTx (f : Transmitter → Transmitter) (s : State) : State := { s with tx := f s.tx }

def State.mapRx (f : Receiver → Receiver) (s : State) : State := { s with rx := f s.rx }

def State.mapTable (f : Replica → Replica) (s : State) : State := { s with table := f s.table }

def State.mapCtrl (f : Controller → Controller) (s : State) : State := { s with ctrl := f s.ctrl }

def State.mapNotices (f : NoticeQueue → NoticeQueue) (s : State) : State :=
  { s with notices := f s.notices }

def State.mapPort (f : Port → Port) (s : State) : State := { s with port := f s.port }

def State.mapRecord (k : RecordIndex) (f : ClaimRecord → ClaimRecord) (s : State) : State :=
  { s with records := s.records.set k (f s.records[k]) }

/-- The own station number, from the straps (R184). -/
def State.own (s : State) : Station := s.port.station

/-- The own E in ms, from the configuration store (R105). -/
def State.ownE (s : State) : Nat := evictionTimeout s.port.store.p s.port.store.k

/-- The group's E in ms, from the replica (R3). -/
def State.groupE (s : State) : Nat := evictionTimeout s.table.p s.table.k

/-- The number of frames in the pending-apply queue, for which the catch-up count stands in while the
failure flag is set (R128). -/
def Controller.pendingCount (c : Controller) : BitVec 16 :=
  if c.failed then c.catchupCount else BitVec.ofNat 16 c.pendingApply.length

/-- The own expected TSEQ (R72). -/
def State.expectedTseq (s : State) : Tseq := s.table.tseq + s.ctrl.pendingCount

/-- The participating states, in which the station casts vetoes (R88). -/
def StationState.participates : StationState → Bool
  | .asking | .catchup | .member | .leaving => true
  | .offline | .listening | .founding | .holdoff => false

/-- The states in which the station stands in its own roster (R5). -/
def StationState.inGroup : StationState → Bool
  | .catchup | .member | .leaving => true
  | .offline | .listening | .founding | .asking | .holdoff => false

/-! ## Notices (R171, R176) -/

/-- A post taken by the notices of a list (R171): coalesced into the notice of its subject where one
stands, appended at the tail where none does. -/
def postList (subject : Subject) (detail : Byte) : List Notice → List Notice
  | [] => [{ subject := subject, count := 1, detail := detail, saturated := false }]
  | n :: rest =>
    if n.subject = subject then
      if n.count < 255 then { n with count := n.count + 1, detail := detail } :: rest
      else { n with detail := detail, saturated := true } :: rest
    else n :: postList subject detail rest

/-- A post (R171); it leaves ATTN# asserted (R176). -/
def NoticeQueue.post (subject : Subject) (detail : Byte) (q : NoticeQueue) : NoticeQueue :=
  { list := postList subject detail q.list, attn := true }

/-- A post to the notice queue (R172). -/
def State.post (subject : Subject) (detail : Byte) (s : State) : State :=
  s.mapNotices (NoticeQueue.post subject detail)

/-- The head notice removed; ATTN# is released when it was the last (R174, R176). -/
def NoticeQueue.removeHead (q : NoticeQueue) : NoticeQueue :=
  { list := q.list.tail, attn := !q.list.tail.isEmpty }

/-! ## Claim records (R149 to R152) -/

/-- A change of a record that changes its state, posted to its slot (R152). -/
def State.changeRecord (k : RecordIndex) (f : ClaimRecord → ClaimRecord) (s : State) : State :=
  let s' := s.mapRecord k f
  s'.post (.slot s'.records[k].slot) (byteOf k.val)

/-- A record that has ended: DONE with its outcome, its timer stopped and its flags clear (R156, R163). -/
def ClaimRecord.completed (outcome : ClaimOutcome) (r : ClaimRecord) : ClaimRecord :=
  { r with state := .done, waitTimer := none, cancelOwed := none, dropReason := none,
           owedDrop := false, outcome := some outcome }

/-- A record that becomes DROPPING with its reason, its timer stopped (R158, R161, R164). -/
def ClaimRecord.dropping (reason : DropReason) (r : ClaimRecord) : ClaimRecord :=
  { r with state := .dropping, waitTimer := none, cancelOwed := none, dropReason := some reason }

/-- A record is live: QUEUED, WAITING, GRANTED or DROPPING (R153, R169). -/
def RecordState.live : RecordState → Bool
  | .queued | .waiting | .granted | .dropping => true
  | .free | .done => false

/-! ## The transmit queue (sections 4.1 and 4.2) -/

/-- The station-state gate (R68). -/
def admits (st : StationState) (kind : FrameKind) : Bool :=
  match kind with
  | .announce => decide (st = .founding)
  | .joinAsk => decide (st = .asking)
  | .presence | .leave => st.inGroup
  | .evict | .admission | .snapshot | .drop => decide (st = .member) || decide (st = .leaving)
  | .claim => decide (st = .member)

/-- The three guards on every enqueue (R69). -/
def guardMet (queue : List TxEntry) (kind : FrameKind) (owner : FrameOwner) : Bool :=
  match owner with
  | .claimUnit k => queue.all fun e => decide (e.owner ≠ .claimUnit k)
  | .controller =>
    match kind with
    | .evict => queue.all fun e => decide (e.kind ≠ .evict)
    | .presence => queue.all fun e => decide (e.kind ≠ .presence)
    | .announce | .leave | .admission | .drop | .snapshot | .claim | .joinAsk => true

/-- A new entry: READY, its cancel mark clear (R64). -/
def TxEntry.fresh (kind : FrameKind) (owner : FrameOwner) (body : List Byte) : TxEntry :=
  { kind := kind, owner := owner, body := body, state := .ready, cancel := false,
    lastActive := false }

/-- An owed frame (R67). -/
inductive OwedFrame where
  | leave
  | evict (target : Station)
  | admission (joiner : Station)
  | snapshot (joiner : Station)
  | presence
  | drop (record : RecordIndex)
  | announce
  | joinAsk
deriving DecidableEq, Repr

def OwedFrame.kind : OwedFrame → FrameKind
  | .leave => .leave
  | .evict _ => .evict
  | .admission _ => .admission
  | .snapshot _ => .snapshot
  | .presence => .presence
  | .drop _ => .drop
  | .announce => .announce
  | .joinAsk => .joinAsk

def OwedFrame.owner : OwedFrame → FrameOwner
  | .drop k => .claimUnit k
  | .leave | .evict _ | .admission _ | .snapshot _ | .presence | .announce | .joinAsk => .controller

/-- The body of an owed frame (R43 to R45, R109, R120, R156). -/
def OwedFrame.body (s : State) : OwedFrame → List Byte
  | .leave | .presence | .joinAsk => []
  | .evict x => [byteOf x.val]
  | .admission j => [byteOf j.val]
  | .snapshot j =>
    let b := s.ctrl.snapshot
    [byteOf j.val, byteOf b.part, byteOf b.partCount, lowByte b.tseq, highByte b.tseq]
      ++ imagePart b.image b.part
  | .drop k => [byteOf s.records[k].resource.val, byteOf k.val]
  | .announce => [byteOf s.port.store.p, byteOf s.port.store.k]

/-- The records, in ascending index. -/
def allRecords : List RecordIndex := List.finRange 32

/-- The EVICT in hand while it is owed (R137). -/
def Controller.owedEvict (c : Controller) : List OwedFrame :=
  match c.evictInHand with
  | some ⟨x, .owed⟩ => [.evict x]
  | some ⟨_, .queued⟩ | none => []

/-- The ADMIT owed for the joiner of the donor phase (R118). -/
def Controller.owedAdmit (c : Controller) : List OwedFrame :=
  match c.donor with
  | .admitting j => if c.owed.admission then [.admission j] else []
  | .none | .donating _ => []

/-- The SNAPSHOT part owed to the joiner of the donor phase (R120). -/
def Controller.owedSnapshot (c : Controller) : List OwedFrame :=
  match c.donor with
  | .donating j => if c.owed.snapshot then [.snapshot j] else []
  | .none | .admitting _ => []

/-- Every owed frame, in the precedence of R67. -/
def State.owedFrames (s : State) : List OwedFrame :=
  (if s.ctrl.owed.leave then [.leave] else [])
    ++ s.ctrl.owedEvict ++ s.ctrl.owedAdmit ++ s.ctrl.owedSnapshot
    ++ (if s.ctrl.owed.presence then [.presence] else [])
    ++ (allRecords.filter fun k => s.records[k].owedDrop).map .drop
    ++ (if s.ctrl.owed.announce then [.announce] else [])
    ++ (if s.ctrl.owed.joinAsk then [.joinAsk] else [])

/-- The owner's part when the transmitter takes its owed frame: the frame is queued and no longer
owed (R67, R137, R156). -/
def State.markTaken (o : OwedFrame) (s : State) : State :=
  match o with
  | .leave => s.mapCtrl fun c => { c with owed := { c.owed with leave := false } }
  | .evict x => s.mapCtrl fun c => { c with evictInHand := some ⟨x, .queued⟩ }
  | .admission _ => s.mapCtrl fun c => { c with owed := { c.owed with admission := false } }
  | .snapshot _ => s.mapCtrl fun c => { c with owed := { c.owed with snapshot := false } }
  | .presence => s.mapCtrl fun c => { c with owed := { c.owed with presence := false } }
  | .drop k => s.mapRecord k fun r => { r with owedDrop := false, mark := .drop }
  | .announce => s.mapCtrl fun c => { c with owed := { c.owed with announce := false } }
  | .joinAsk => s.mapCtrl fun c => { c with owed := { c.owed with joinAsk := false } }

/-- An entry appended at the tail (R64). -/
def State.enqueue (e : TxEntry) (s : State) : State :=
  s.mapTx fun t => { t with queue := t.queue ++ [e] }

/-- The first owed frame in precedence that the gate and the guards allow (R67 to R69). -/
def State.nextOwed (s : State) : Option OwedFrame :=
  s.owedFrames.find? fun o => admits s.ctrl.station o.kind && guardMet s.tx.queue o.kind o.owner

/-- One free place handed to the owed frames (R67). -/
def State.handOutOne (s : State) : State :=
  if s.tx.queue.length < 8 then
    match s.nextOwed with
    | some o => (s.markTaken o).enqueue (.fresh o.kind o.owner (o.body s))
    | none => s
  else s

/-- Every free place handed to the owed frames that can be taken (R67): there are at most 8 places.
Proofs go through the lemmas of Laws/Queue.lean. -/
@[irreducible] def State.handOut (s : State) : State := Nat.repeat State.handOutOne 8 s

/-- The answers to a host frame (R66). -/
inductive HostAnswer where
  | taken | wrongState | recordBusy | full
deriving DecidableEq, Repr

/-- The admission of a host frame of a record, its conditions checked in the order 2, 3, 1 (R66). -/
def State.hostAnswer (s : State) (kind : FrameKind) (k : RecordIndex) : HostAnswer :=
  if !admits s.ctrl.station kind then .wrongState
  else if !guardMet s.tx.queue kind (.claimUnit k) then .recordBusy
  else if s.tx.queue.length ≤ 5 then .taken
  else .full

/-- The controller's frame of this kind is in the queue. -/
def Transmitter.holds (t : Transmitter) (kind : FrameKind) : Bool :=
  t.queue.any fun e => decide (e.kind = kind) && decide (e.owner = .controller)

/-- The station state changes, and every free place is handed to the owed frames that the new state
admits (R67, R103). -/
def State.enter (st : StationState) (s : State) : State :=
  (s.mapCtrl fun c => { c with station := st }).handOut

/-! ## Cancelling a queued frame (R78) -/

inductive CancelAnswer where
  | removed | inFlight | notQueued
deriving DecidableEq, Repr

/-- The cancel mark set on the ACTIVE entry that a cancellation names (R64, R78). -/
def markCancelled (named : TxEntry → Bool) (e : TxEntry) : TxEntry :=
  if named e && decide (e.state = .active) then { e with cancel := true } else e

/-- A cancellation of the entry that `named` picks (R78): the transmitter's answer, and the queue
after it with its freed place handed out. It names a record's entry or the EVICT, of which the queue
holds at most one (R69). -/
def State.cancel (named : TxEntry → Bool) (s : State) : State × CancelAnswer :=
  match s.tx.queue.find? named with
  | none => (s, .notQueued)
  | some e =>
    match e.state with
    | .active =>
      (s.mapTx fun t => { t with queue := t.queue.map (markCancelled named) }, .inFlight)
    | .ready => ((s.mapTx fun t => { t with queue := t.queue.eraseP named }).handOut, .removed)

/-- The controller's entry of a kind (R78: the membership controller names an entry by kind). -/
def ofKind (kind : FrameKind) (e : TxEntry) : Bool :=
  decide (e.kind = kind) && decide (e.owner = .controller)

/-- An entry stands after a cancellation of every entry that `named` picks: a READY one that it picks
does not (R78). -/
def keptBy (named : TxEntry → Bool) (e : TxEntry) : Bool :=
  !(named e && decide (e.state = .ready))

/-- A cancellation by kind of every entry that the controller has in the queue (R78; log entry 36): the
READY ones are removed, their places handed out, and the ACTIVE one is marked. -/
def State.cancelKind (kind : FrameKind) (s : State) : State :=
  let s' := s.mapTx fun t =>
    { t with queue := (t.queue.filter (keptBy (ofKind kind))).map (markCancelled (ofKind kind)) }
  if s.tx.queue.all (keptBy (ofKind kind)) then s' else s'.handOut

/-- The claim unit's entry of a record (R78). -/
def ofRecord (k : RecordIndex) (e : TxEntry) : Bool := decide (e.owner = .claimUnit k)

/-- The withdrawal of a QUEUED claim by the host, by LEAVING or by its wait timer (R162, R164, R168). -/
def State.withdrawQueued (reason : CancelReason) (k : RecordIndex) (s : State) : State :=
  let s := s.mapRecord k fun r => { r with waitTimer := none }
  match s.records[k].mark with
  | .claim =>
    match s.cancel (ofRecord k) with
    | (s, .removed) =>
      s.changeRecord k fun r => { r.completed reason.outcome with mark := .none }
    | (s, .inFlight) => s.mapRecord k fun r => { r with cancelOwed := some reason }
    | (s, .notQueued) =>
      s.mapRecord k fun r => { r with cancelOwed := some reason, mark := .none }
  | .none | .drop => s.mapRecord k fun r => { r with cancelOwed := some reason }

/-- A record becomes DROPPING with its DROP frame owed (R156). -/
def State.dropRecord (reason : DropReason) (k : RecordIndex) (s : State) : State :=
  (s.changeRecord k fun r => { r.dropping reason with owedDrop := true }).handOut

/-- A PRESENCE made owed, unless one is already owed or queued (R132, R133). -/
def State.owePresence (s : State) : State :=
  if s.ctrl.owed.presence || s.tx.holds .presence then s
  else (s.mapCtrl fun c => { c with owed := { c.owed with presence := true } }).handOut

/-! ## Breaks of the line interface (R53, R58, R61) -/

/-- The level the transmitter's frame has at the bit being sent (R57, R58): recessive when the frame
holds no such character. -/
def State.frameLevel (s : State) (i : Nat) : Level :=
  match s.tx.frame[s.line.txChar]? with
  | some c => charBit c (decide (s.line.txChar = 0)) i
  | none => .recessive

/-- The number of the bit of the present character being sampled, 0 for the start bit. -/
def LineIf.bitIndex (l : LineIf) : Nat := (l.shift.map fun h => h.bits.length).getD 0

/-- The level at which the station drives LINE (R48): recessive when it drives nothing. -/
def State.ownDrive (s : State) : Level :=
  match s.line.breakDrive with
  | some _ => s.line.breakWait.getD .dominant
  | none =>
    if s.line.vetoDriving then .dominant
    else match s.line.state with
      | .contend | .sending => s.frameLevel s.line.bitIndex
      | .idle | .receiving | .window | .settling | .breaking | .fault => .recessive

/-- The line interface goes to BREAK: the character in the shift stage is discarded, the frame
position is 0, and a break report is made (R53, R58, R61). -/
def LineIf.toBreak (l : LineIf) : LineIf :=
  { l with state := .breaking, shift := none, edge := false, framePos := 0, frameLen := none,
           recessiveCount := 0, stream := l.stream ++ [.lineBreak] }

/-- The line interface drives a break of 16 bit times from the next bit on; the bit being timed, if
one has begun, keeps the level it has (R58; log entry 14). -/
def LineIf.driveBreak (held : Level) (l : LineIf) : LineIf :=
  { l.toBreak with breakDrive := some 0, breakWait := if l.bitPos = 0 then none else some held }

/-! ## Flush, clear and detach (R80, R102, R145) -/

/-- The transmit queue flushed; an attempt on the line in CONTEND or SENDING is withdrawn with a
break (R58, R80). Reports not yet taken go with it (log entry 8). -/
def State.flush (s : State) : State :=
  let s' := match s.line.state with
    | .contend | .sending => s.mapLine (LineIf.driveBreak s.ownDrive)
    | .idle | .receiving | .window | .settling | .breaking | .fault => s
  { s' with tx := .empty }

/-- The receiver cleared (R102); the assembly buffer is kept. -/
def Receiver.clear (r : Receiver) : Receiver :=
  { r with inbox := [], handoff := none, ownVetoes := 0 }

/-- The controller's state returned to the values of R104 and R131. The founding counter, the
line-fault flag, the holdoff timer, the last detach reason and the station state keep their values
here. -/
def Controller.cleared (ownE : Nat) (c : Controller) : Controller :=
  { Controller.reset with station := c.station, workingE := ownE, founding := c.founding,
                          lineFault := c.lineFault, holdoff := c.holdoff,
                          lastDetach := c.lastDetach }

/-- Flush, clear and return to the reset values, at a detach and at every other change into OFFLINE
or HOLDOFF (R80, R102, R104, R131). -/
def State.clearGroup (s : State) : State :=
  let s := s.flush.mapRx Receiver.clear
  s.mapCtrl (Controller.cleared s.ownE)

/-- One record at a detach (R155, R169): a live record is completed LOST and posted. -/
def State.loseRecord (s : State) (k : RecordIndex) : State :=
  if s.records[k].state.live then
    s.changeRecord k fun r => { r.completed .lost with mark := .none }
  else s.mapRecord k fun r => { r with mark := .none }

/-- The length of the holdoff in ms (R147). -/
def State.holdoffLength (s : State) : Nat :=
  (2 + s.own.val % 8) * (s.port.store.p * 10)

/-- The station goes to HOLDOFF and starts the holdoff timer (R147). -/
def State.enterHoldoff (s : State) : State :=
  s.mapCtrl fun c => { c with station := .holdoff, holdoff := .running s.holdoffLength }

/-- The station goes to OFFLINE (R141, R146). -/
def State.enterOffline (s : State) : State :=
  s.mapCtrl fun c => { c with station := .offline, holdoff := .stopped }

/-- The DETACHED notice and the last detach reason (R145, R146). -/
def State.reportDetach (reason : DetachReason) (s : State) : State :=
  (s.post .detached reason.code).mapCtrl fun c => { c with lastDetach := some reason }

/-- The detach procedure (R145, R146). A cause that reaches the controller in OFFLINE, LISTENING or
HOLDOFF has no effect (R144). -/
def State.detach (reason : DetachReason) (s : State) : State :=
  match s.ctrl.station with
  | .offline | .listening | .holdoff => s
  | .founding | .asking | .catchup | .member | .leaving =>
    let toOffline : Bool := decide (reason = .left) || s.ctrl.leaveMark
    let s := { s with table := .absent }
    let s := allRecords.foldl State.loseRecord s.clearGroup
    let s := s.reportDetach reason
    if toOffline then s.enterOffline else s.enterHoldoff

/-- A failed attempt of the ACTIVE entry (R74, R75, R77, R79): the counter rises, and at 16 the
station detaches; otherwise the entry is READY again, or removed with WITHDRAWN if it carries a cancel
mark. Without an ACTIVE entry, which a flush has removed, the result is ignored (R75, R80). -/
def State.endAttempt (failed : Bool) (s : State) : State :=
  match s.tx.queue.find? fun e => decide (e.state = .active) with
  | none => s
  | some e =>
    if failed && decide (16 ≤ s.tx.attempts + 1) then
      (s.flush).detach .attemptLimit
    else
      let s := s.mapTx fun t => { t with attempts := if failed then t.attempts + 1 else t.attempts,
                                         frame := [] }
      if e.cancel then
        (s.mapTx fun t =>
          { t with queue := t.queue.eraseP fun e => decide (e.state = .active),
                   reports := t.reports ++ [.withdrawn e.kind e.owner] }).handOut
      else s.mapTx fun t => { t with queue := t.queue.map fun e => { e with state := .ready } }

/-- The own frame is accepted (R75): its entry is removed, the counter is 0, and its owner has an
ACCEPTED report to take. Without an ACTIVE entry the result is ignored (R80). -/
def State.acceptAttempt (s : State) : State :=
  match s.tx.queue.find? fun e => decide (e.state = .active) with
  | none => s
  | some e =>
    (s.mapTx fun t =>
      { t with queue := t.queue.eraseP fun e => decide (e.state = .active), attempts := 0, frame := [],
               reports := t.reports ++ [.accepted e.kind e.owner] }).handOut

/-! ## Timers (R105, R189) -/

/-- A timer started at `n` ms, frozen if the line is in fault. -/
def Timer.start (n : Nat) (frozen : Bool) : Timer := if frozen then .frozen n else .running n

/-- One tick of a timer (R189). -/
def Timer.tick : Timer → Timer
  | .running (n + 1) => .running n
  | t => t

def SilenceTimer.tick : SilenceTimer → SilenceTimer
  | .running (n + 1) => .running n
  | t => t

/-- The timer has run out and its expiry has not been taken. -/
def Timer.due (t : Timer) : Bool := decide (t = .running 0)

/-- A timer frozen by a line fault (R135). -/
def Timer.freeze : Timer → Timer
  | .running n => .frozen n
  | t => t

def Timer.resume : Timer → Timer
  | .frozen n => .running n
  | t => t

def SilenceTimer.freeze : SilenceTimer → SilenceTimer
  | .running n => .frozen n
  | t => t

def SilenceTimer.resume : SilenceTimer → SilenceTimer
  | .frozen n => .running n
  | t => t

/-- A silence timer started at `n` ms (R134). -/
def SilenceTimer.start (n : Nat) (frozen : Bool) : SilenceTimer :=
  if frozen then .frozen n else .running n

/-- The presence interval in force, in ms (R132). -/
def State.presenceInterval (s : State) : Nat :=
  if s.ctrl.station = .catchup ∧ s.table.condition ≠ .present then
    min (s.port.store.p * 10) (s.ctrl.workingE / 3)
  else s.table.p * 10

/-- The presence timer started at the interval in force (R132). -/
def State.restartPresence (s : State) : State :=
  s.mapCtrl fun c => { c with presence := .running s.presenceInterval }

end Sys2Proof.Machine
end

