-- ==== Sys2Proof/Machine/Control.lean ====
section
/-! DEFINITION. What the membership controller and the claim unit do on reports: joining, founding,
the donor role, catch-up, silence and eviction, and the records' outcomes (chapters 6 to 8). -/

namespace Sys2Proof.Machine

/-! ## Listening, founding and asking (sections 6.2 to 6.4) -/

/-- Entry to LISTENING (R106); the listen timer starts frozen during a line fault (R105, R190). -/
def State.enterListening (s : State) : State :=
  (s.mapCtrl fun c =>
    { c with workingE := s.ownE, learnedE := none, lowestTag := none,
             listen := .start (2 * s.ownE) c.lineFault }).enter .listening

/-- Entry to FOUNDING (R109). -/
def State.enterFounding (s : State) : State :=
  (s.mapCtrl fun c =>
    { c with askedTag := byteOf (s.own.val * 8 + c.founding.val),
             owed := { c.owed with announce := true } }).enter .founding

/-- Entry to ASKING (R113), with the working E of R105. -/
def State.enterAsking (s : State) : State :=
  (s.mapCtrl fun c =>
    { c with workingE := c.learnedE.getD s.ownE, askCount := 1, ask := .stopped,
             owed := { c.owed with joinAsk := true } }).enter .asking

/-- The station founds its group with the tag its ANNOUNCE carried (R110, R28). -/
def State.foundGroup (tag : Byte) (s : State) : State :=
  let s := s.mapTable (Replica.found s.own tag s.port.store)
  let s := s.mapCtrl fun c => { c with founding := c.founding + 1, workingE := s.groupE }
  let s := s.enter .member
  s.restartPresence.post .joined s.table.tag

/-- The ANNOUNCE withdrawn: the owed mark is cleared if it is still owed, and the queued entry is
cancelled otherwise (R111). -/
def State.withdrawAnnounce (s : State) : State :=
  if s.ctrl.owed.announce then
    s.mapCtrl fun c => { c with owed := { c.owed with announce := false } }
  else s.cancelKind .announce

/-- Any JOIN-ASK withdrawn, owed or queued (R116). The owed mark is cleared first, so the place that a
queued one frees is not handed to it. -/
def State.withdrawJoinAsk (s : State) : State :=
  (s.mapCtrl fun c => { c with owed := { c.owed with joinAsk := false } }).cancelKind .joinAsk

/-- E in ms, as the frame's group parameters give it if it is an ANNOUNCE that carries them (R43). -/
def announcedE (kind : FrameKind) (body : List Byte) : Option Nat :=
  if kind = .announce then (announceParameters body).map fun x => evictionTimeout x.1 x.2 else none

/-- A frame taken in LISTENING (R107). -/
def State.groupHeard (kind : FrameKind) (f : Frame) (s : State) : State :=
  let e := announcedE kind f.body
  s.mapCtrl fun c =>
    match c.lowestTag with
    | none => { c with lowestTag := some f.tag, learnedE := e }
    | some low =>
      if f.tag < low then { c with lowestTag := some f.tag, learnedE := e }
      else if f.tag = low then { c with learnedE := e <|> c.learnedE }
      else c

/-- A frame taken in FOUNDING (R110, R111). -/
def State.foundingTakes (kind : FrameKind) (sender : Station) (f : Frame) (s : State) : State :=
  if sender = s.own then
    if kind = .announce then s.foundGroup f.tag else s
  else
    let s := s.withdrawAnnounce
    (s.mapCtrl fun c =>
      { c with askedTag := f.tag, learnedE := announcedE kind f.body <|> c.learnedE }).enterAsking

/-- The JOIN-ASK made owed unless one is owed or in the queue (R115). -/
def State.oweJoinAsk (s : State) : State :=
  if s.ctrl.owed.joinAsk || s.tx.holds .joinAsk then s
  else (s.mapCtrl fun c => { c with owed := { c.owed with joinAsk := true } }).handOut

/-- The station has been admitted (R116): catch-up opens. The stall timer runs for the working E, and
the presence timer starts (R132). -/
def State.admitted (sender : Station) (f : Frame) (s : State) : State :=
  let base := f.tseq + 1
  let s := s.mapCtrl fun c => { c with baseTseq := base, donorStation := some sender }
  let s := s.withdrawJoinAsk
  let s := s.mapCtrl fun c => { c with ask := .stopped }
  let s := s.mapTable (Replica.openCatchup s.own f.tag base)
  let s := s.mapCtrl fun c =>
    { c with catchupCount := 0, pendingApply := [], failed := false, snapshot := .empty,
             stall := .running c.workingE }
  (s.enter .catchup).restartPresence

/-- A frame with a lower tag taken in ASKING (R115). -/
def State.askLower (kind : FrameKind) (f : Frame) (s : State) : State :=
  let e := announcedE kind f.body
  (s.mapCtrl fun c =>
    { c with askedTag := f.tag, learnedE := e, workingE := e.getD s.ownE, askCount := 1,
             ask := .stopped }).oweJoinAsk

/-- A frame taken in ASKING (R115, R116). -/
def State.askingTakes (kind : FrameKind) (sender : Station) (f : Frame) (s : State) : State :=
  if kind = .admission ∧ f.tag = s.ctrl.askedTag ∧ f.body.head?.bind stationOf = some s.own then
    s.admitted sender f
  else if sender = s.own then s
  else if f.tag < s.ctrl.askedTag then s.askLower kind f
  else if f.tag = s.ctrl.askedTag then
    match announcedE kind f.body with
    | some e => s.mapCtrl fun c => { c with learnedE := some e, workingE := e }
    | none => s
  else s

/-! ## The donor (section 6.5) -/

/-- The next ADMIT made owed when the list is not empty, the phase is NONE and the station is in
MEMBER (R118). -/
def State.admitNext (s : State) : State :=
  match s.ctrl.joinAsks, s.ctrl.donor with
  | j :: _, .none =>
    if s.ctrl.station = .member then
      (s.mapCtrl fun c =>
        { c with donor := .admitting j, owed := { c.owed with admission := true } }).handOut
    else s
  | _, _ => s

/-- A JOIN-ASK taken up in MEMBER (R117); it is ignored in every other state (R117, R142). -/
def State.takeJoinAsk (j : Station) (s : State) : State :=
  if s.ctrl.station = .member ∧ s.table.isHead s.own = true ∧ j ∉ s.table.roster
      ∧ j ∉ s.ctrl.joinAsks ∧ s.ctrl.joinAsks.length < 4 then
    (s.mapCtrl fun c => { c with joinAsks := c.joinAsks ++ [j] }).admitNext
  else s

/-- The report is one for a SNAPSHOT part of the controller (R76). -/
def TxReport.ofPart : TxReport → Bool
  | .accepted .snapshot .controller | .withdrawn .snapshot .controller => true
  | _ => false

/-- The reports for SNAPSHOT parts that the controller has still to take: those that wait, and the one
that each part in the queue will make when its attempt ends (R76, R78). -/
def Transmitter.partReports (t : Transmitter) : Nat :=
  t.reports.countP TxReport.ofPart + t.queue.countP (ofKind .snapshot)

/-- The end of a donation to a joiner (R121). A part that the cancellation leaves in the queue is in
flight; its report, and one that waits already, are those of an ended donation (log entry 37). -/
def State.endDonation (j : Station) (s : State) : State :=
  let s := s.mapCtrl fun c => { c with owed := { c.owed with snapshot := false } }
  let s := s.cancelKind .snapshot
  (s.mapCtrl fun c =>
    { c with snapshot := .empty, staleParts := s.tx.partReports, joinAsks := c.joinAsks.filter (fun x => decide (x ≠ j)),
             donor := .none }).admitNext

/-- The own ADMIT's result (R119). -/
def State.takeAdmitResult (effect : Bool) (s : State) : State :=
  match s.ctrl.donor with
  | .admitting j =>
    if effect then
      let image := s.table.image
      (s.mapCtrl fun c =>
        { c with snapshot := { image := image, tseq := s.table.tseq,
                               partCount := imagePartCount image, part := 1 },
                 donor := .donating j, owed := { c.owed with snapshot := true } }).handOut
    else s.endDonation j
  | .none | .donating _ => s

/-- A report for a part of an ended donation taken: it has no effect but that it comes no more (R121). -/
def State.dropPartReport (s : State) : State :=
  s.mapCtrl fun c => { c with staleParts := c.staleParts - 1 }

/-- The ACCEPTED report for a SNAPSHOT part (R120); one for a part of an ended donation has no effect
(R121). Reports are taken in the order in which they were made, so those come first (log entry 39). -/
def State.partAccepted (s : State) : State :=
  if 0 < s.ctrl.staleParts then s.dropPartReport
  else match s.ctrl.donor with
  | .donating j =>
    if s.ctrl.snapshot.part < s.ctrl.snapshot.partCount then
      (s.mapCtrl fun c =>
        { c with snapshot := { c.snapshot with part := c.snapshot.part + 1 },
                 owed := { c.owed with snapshot := true } }).handOut
    else s.endDonation j
  | .none | .admitting _ => s

/-! ## Silence and eviction (sections 7.2 and 7.3) -/

/-- An EVICT made owed for the head of the eviction list when none is in hand (R137, R139). -/
def State.nextEvict (s : State) : State :=
  match s.ctrl.evictInHand, s.ctrl.evictions with
  | none, x :: _ => (s.mapCtrl fun c => { c with evictInHand := some ⟨x, .owed⟩ }).handOut
  | _, _ => s

/-- The EVICT in hand is resolved (R139). -/
def State.resolveEvict (s : State) : State :=
  (s.mapCtrl fun c => { c with evictInHand := none }).nextEvict

/-- A station taken from the eviction list. -/
def State.unlist (x : Station) (s : State) : State :=
  s.mapCtrl fun c => { c with evictions := c.evictions.filter fun y => decide (y ≠ x) }

/-- A station withdrawn from eviction (R138). -/
def State.withdrawEviction (x : Station) (s : State) : State :=
  if x ∈ s.ctrl.evictions then
    match s.ctrl.evictInHand with
    | none => s.unlist x
    | some ⟨y, phase⟩ =>
      if y = x then
        match phase with
        | .owed => (s.unlist x).resolveEvict
        | .queued =>
          match s.cancel (ofKind .evict) with
          | (s, .removed) => (s.unlist x).resolveEvict
          | (s, .inFlight) | (s, .notQueued) => s.unlist x
      else s.unlist x
  else s

/-- The silence report for a sender (R97, R134, R138). A timer restarts frozen while the line-fault
flag is set (R135). -/
def State.silenceReport (x : Station) (s : State) : State :=
  match s.ctrl.silence[x] with
  | none => s
  | some _ =>
    (s.mapCtrl fun c =>
      { c with silence :=
          c.silence.set x (some (.start s.groupE c.lineFault)) }).withdrawEviction x

/-- A silence timer started for a new member (R134). -/
def State.startSilence (s : State) (j : Station) : State :=
  s.mapCtrl fun c => { c with silence := c.silence.set j (some (.start s.groupE c.lineFault)) }

/-- ROSTER-CHANGED with the roster count (R171, R172). -/
def State.postRoster (s : State) : State :=
  s.post .rosterChanged (byteOf s.table.roster.length)

/-- The member-added report of an application (R134). -/
def State.memberAdded (j : Station) (s : State) : State := (s.startSilence j).postRoster

/-- A donation whose joiner has been removed ends (R121). -/
def State.donationLost (x : Station) (s : State) : State :=
  match s.ctrl.donor with
  | .admitting j | .donating j => if j = x then s.endDonation j else s
  | .none => s

/-- The member-removed report of an application (R121, R134, R138). That the withdrawal from eviction,
with its next EVICT, comes before the end of the donation is the model's choice (log entry 46). -/
def State.memberRemoved (x : Station) (s : State) : State :=
  let s := s.mapCtrl fun c => { c with silence := c.silence.set x none }
  (s.withdrawEviction x).postRoster.donationLost x

/-! ## The claim unit's reports (section 8.4) -/

/-- The report of an own CLAIM's insertion, taken by a QUEUED record (R158). -/
def State.takeInsertion (k : RecordIndex) (granted : Bool) (s : State) : State :=
  match s.records[k].cancelOwed with
  | some reason => s.dropRecord reason.dropReason k
  | none =>
    if granted then s.changeRecord k fun r => { r with state := .granted, waitTimer := none }
    else s.changeRecord k fun r => { r with state := .waiting }

/-- A report taken by the record it names, by the record's state (R158 to R160); a report that these
rules do not list for the state is ignored (R157). -/
def State.recordReport (k : RecordIndex) (news : ClaimNews) (s : State) : State :=
  match s.records[k].state, news with
  | .queued, .insertedWaiting => s.takeInsertion k false
  | .queued, .insertedGranted => s.takeInsertion k true
  | .queued, .refused o => s.changeRecord k (ClaimRecord.completed o)
  | .waiting, .promoted =>
    s.changeRecord k fun r => { r with state := .granted, waitTimer := none }
  | .dropping, .removed | .dropping, .dropNoEntry =>
    s.changeRecord k
      (ClaimRecord.completed ((s.records[k].dropReason.map DropReason.outcome).getD .lost))
  | .waiting, .removed | .granted, .removed => s.changeRecord k (ClaimRecord.completed .lost)
  | _, _ => s

/-- A report of the table engine to the claim unit: taken by the record whose index it names, only
when the record's resource is the one the report names (R157). -/
def State.takeClaimReport (resource record : Byte) (news : ClaimNews) (s : State) : State :=
  match recordOf record with
  | some k =>
    if resourceOf resource = some s.records[k].resource then s.recordReport k news else s
  | none => s

/-! ## Applications (R7, R14, R23) -/

/-- The detach reason of the own removal (R20, R21). -/
def Removal.reason : Removal → DetachReason
  | .evicted => .evicted
  | .left => .left

/-- A report of an application taken by its recipient. -/
def State.takeTableReport (s : State) : TableReport → State
  | .claim r k news => s.takeClaimReport r k news
  | .memberAdded j => s.memberAdded j
  | .memberRemoved x _ => s.memberRemoved x
  | .ownRemoved how => s.detach how.reason
  | .admitResult effect => s.takeAdmitResult effect

/-- One application, whole: the replica's change and then its reports in order (R14, R24, R157). A
frame that reaches the table engine in ABSENT or PENDING is discarded (R14). -/
def State.applyFrame (f : Frame) (s : State) : State :=
  if s.table.condition = .present then
    let result := s.table.apply s.own f
    result.2.foldl State.takeTableReport { s with table := result.1 }
  else s

/-! ## Catch-up (sections 6.6 and 6.7) -/

/-- A catch-up failure (R128): the first sets the flag; a further one has no effect. -/
def State.catchupFailure (s : State) : State :=
  if s.ctrl.failed then s
  else
    (s.mapCtrl fun c =>
      { c with failed := true, pendingApply := [], snapshot := .empty,
               owed := { c.owed with leave := true }, stall := .running c.workingE }).handOut

/-- The end of a failed catch-up (R129, R143). -/
def State.endFailedCatchup (s : State) : State :=
  s.detach (if s.ctrl.leaveMark then .left else .catchupFailed)

/-- The joiner has caught up (R127). -/
def State.caughtUp (s : State) : State :=
  let s := (s.mapCtrl fun c => { c with catchupCount := 0 }).enter .member
  let s := s.restartPresence.post .joined s.table.tag
  if s.ctrl.configDiffers then s.post .configAdopted 0 else s

/-- The station the frame names as the target of an EVICT. -/
def Frame.names (f : Frame) (x : Station) : Bool :=
  decide (f.body.head?.bind stationOf = some x)

/-- The frame removes the donor station (R123). -/
def State.removesDonor (kind : FrameKind) (sender : Station) (f : Frame) (s : State) : Bool :=
  match s.ctrl.donorStation with
  | none => false
  | some d =>
    match kind with
    | .evict => f.names d
    | .leave => decide (sender = d)
    | .announce | .admission | .drop | .snapshot | .claim | .presence | .joinAsk => false

/-- A sequenced frame placed at the pending-apply queue (R123, R128, R129). -/
def State.placePending (kind : FrameKind) (sender : Station) (f : Frame) (s : State) : State :=
  let counted := s.mapCtrl fun c => { c with catchupCount := c.catchupCount + 1 }
  if s.ctrl.failed then
    if kind = .leave ∧ sender = s.own then counted.endFailedCatchup else counted
  else if 16 ≤ s.ctrl.pendingApply.length then counted.catchupFailure
  else
    let placed := counted.mapCtrl fun c => { c with pendingApply := c.pendingApply ++ [f] }
    if s.table.condition ≠ .present ∧ s.removesDonor kind sender f = true then placed.catchupFailure
    else placed

/-- The installed parameters or a definition differ from the configuration store (R125). -/
def State.differsFromStore (s : State) : Bool :=
  decide (s.table.p ≠ s.port.store.p) || decide (s.table.k ≠ s.port.store.k)
    || decide (s.table.limits ≠ s.port.store.limits)

/-- The install request with the assembled image (R125, R29, R30), and what the controller does on
the answer. The replay starts, and has nothing to do when the queue is empty (R127). -/
def State.install (tseq : Tseq) (s : State) : State :=
  let s := s.mapCtrl fun c => { c with stall := .stopped }
  match s.table.install s.own s.ctrl.snapshot.image tseq with
  | none => s.catchupFailure
  | some t =>
    let s := { s with table := t }
    let others := t.roster.filter fun x => decide (x ≠ s.own)
    let s := (others.foldl State.startSilence s).postRoster
    let s := s.mapCtrl fun c =>
      { c with snapshot := .empty, workingE := s.groupE, configDiffers := s.differsFromStore }
    let s := s.restartPresence
    if s.ctrl.pendingApply.isEmpty then s.caughtUp else s

/-- The checks of R47 on a part, against the parts taken before it (R124). -/
def partAllowed (b : Snapshot) (part count : Nat) (data : List Byte) : Bool :=
  decide (part = b.part + 1) && decide (4 ≤ count ∧ count ≤ 26)
    && (decide (b.part = 0) || decide (count = b.partCount))
    && decide (part ≤ count)
    && (decide (part = count) || decide (data.length = 19))

/-- A SNAPSHOT taken up in CATCHUP (R124): a part addressed to the own station by the donor, before
install and while parts are taken, is checked and appended; every other is ignored. -/
def State.takePart (sender : Station) (f : Frame) (s : State) : State :=
  match f.body with
  | j :: pc :: cc :: lo :: hi :: data =>
    if s.ctrl.failed = false ∧ s.table.condition = .pending ∧ s.ctrl.donorStation = some sender
        ∧ stationOf j = some s.own then
      if partAllowed s.ctrl.snapshot pc.toNat cc.toNat data then
        let s := s.mapCtrl fun c =>
          { c with snapshot := { image := c.snapshot.image ++ data, tseq := word16 lo hi,
                                 partCount := cc.toNat, part := pc.toNat },
                   stall := .running c.workingE }
        if pc = cc then s.install (word16 lo hi) else s
      else s.catchupFailure
    else s
  | _ => s

/-- A replay step is to be taken: CATCHUP, the image installed, no failure, and a frame waits (R126). -/
def State.replayDue (s : State) : Bool :=
  decide (s.ctrl.station = .catchup) && decide (s.table.condition = .present) && !s.ctrl.failed
    && !s.ctrl.pendingApply.isEmpty

/-- What a replay step does with the frame it removed (R126). -/
def State.replayFrame (f : Frame) (s : State) : State :=
  match f.known with
  | some (_, sender) =>
    if sender ∉ s.table.roster then s
    else if f.tseq ≠ s.table.tseq then s.catchupFailure
    else s.applyFrame f
  | none => s

/-- The end of the replay, when the step has left the queue empty (R127). -/
def State.replayEnd (s : State) : State :=
  if s.ctrl.station = .catchup ∧ s.ctrl.failed = false ∧ s.ctrl.pendingApply.isEmpty = true then
    s.caughtUp
  else s

end Sys2Proof.Machine
end

