-- ==== Sys2Proof/Machine/LineInterface.lean ====
section
/-! DEFINITION. The line interface and the transmitter's part in it (chapters 3 and 4): timing and
sampling of bits, the clock, and the effect of every line event with the condition under which it is
due. Every event that is not due leaves the state as it is (log entry 1). -/

namespace Sys2Proof.Machine

/-- An event of the part takes place when it is due, and has no effect when it is not (log entry 1). -/
def whenDue (due : Bool) (effect : State → State) (s : State) : Host.Outcome State Fault Refusal :=
  .next (if due then effect s else s)

/-! ## The offer and the choice of an entry (R70 to R72) -/

/-- The entry is READY. -/
def TxEntry.ready (e : TxEntry) : Bool := decide (e.state = .ready)

/-- The entry is ACTIVE. -/
def TxEntry.active (e : TxEntry) : Bool := decide (e.state = .active)

/-- The transmitter offers a frame (R70). -/
def State.offered (s : State) : Bool :=
  s.tx.queue.any TxEntry.ready && !s.tx.queue.any TxEntry.active && s.rx.inbox.isEmpty
    && s.rx.handoff.isNone

/-- The place of the entry that R71 chooses: the oldest READY entry of the highest class. -/
def chosenEntry (queue : List TxEntry) : Option Nat :=
  [0, 1, 2, 3].findSome? fun rank =>
    queue.findIdx? fun e => e.ready && decide (e.kind.rank = rank)

/-- The entry at place `i` made ACTIVE, and marked as the one that was last ACTIVE (R71, R77). -/
def activate (i : Nat) (queue : List TxEntry) : List TxEntry :=
  queue.mapIdx fun j e =>
    { e with state := if j = i then .active else e.state, lastActive := decide (j = i) }

/-- The group tag of a frame (R72). -/
def State.frameTag (s : State) (kind : FrameKind) : Byte :=
  match kind with
  | .announce | .joinAsk => s.ctrl.askedTag
  | .evict | .leave | .admission | .drop | .snapshot | .claim | .presence => s.table.tag

/-- The TSEQ of a frame (R72). -/
def State.frameTseq (s : State) (kind : FrameKind) : Tseq :=
  match kind with
  | .announce | .joinAsk => 0
  | .evict | .leave | .admission | .drop | .snapshot | .claim | .presence => s.expectedTseq

/-- The characters of the frame of an entry, with its header and check filled (R42, R72). -/
def State.filledFrame (s : State) (e : TxEntry) : List Byte :=
  frameChars e.kind s.own (s.frameTag e.kind) (s.frameTseq e.kind) e.body

/-! ## Timing and sampling (R49, R50) -/

/-- The start of a bit: the accumulator takes F, and the bit lasts D or D + 1 periods (R49). -/
def LineIf.beginBit (d f : Nat) (l : LineIf) : LineIf :=
  if 8 ≤ l.acc + f then { l with acc := l.acc + f - 8, bitLen := d + 1, samples := [] }
  else { l with acc := l.acc + f, bitLen := d, samples := [] }

/-- Period `p` of a bit is one of the three sampled (R50). -/
def sampled (d p : Nat) : Bool :=
  decide (p = d / 2 - d / 8) || decide (p = d / 2) || decide (p = d / 2 + d / 8)

/-- The level of a bit by the majority of its samples (R50). -/
def majority (samples : List Level) : Level :=
  if 2 ≤ samples.count .dominant then .dominant else .recessive

/-- The samples do not all agree (R50). -/
def disagree (samples : List Level) : Bool :=
  samples.contains .dominant && samples.contains .recessive

/-- The dominant run count after a bit time (R61), which counts to 1024. -/
def runAfter (run : Nat) (level : Level) : Nat :=
  match level with
  | .dominant => min 1024 (run + 1)
  | .recessive => 0

/-- The recessive count after a bit time outside characters: consecutive bit times in SETTLING, BREAK
and FAULT (R55, R61, R62), and the recessive bit times of a gap in RECEIVING (R54; log entry 15). -/
def LineIf.countAfter (l : LineIf) (level : Level) : Nat :=
  match l.state, level with
  | .settling, .recessive | .breaking, .recessive | .fault, .recessive | .receiving, .recessive =>
    l.recessiveCount + 1
  | .settling, .dominant | .breaking, .dominant | .fault, .dominant => 0
  | _, _ => l.recessiveCount

/-- A veto stands in the window (R60): a run of at least 12 bit times that began within its first 6,
where `time` bit times have passed since the opening and the last `run` were dominant. A run that was
in progress at the opening counts from the opening (log entry 13). -/
def vetoIn (time run : Nat) : Bool :=
  decide (12 ≤ min run time) && decide (time - min run time < 6)

/-- The break being driven after a bit time (R58). -/
def LineIf.breakAfter (l : LineIf) : Option Nat :=
  match l.breakWait, l.breakDrive with
  | none, some n => some (n + 1)
  | _, b => b

/-- The end of a bit: its level goes to the shift stage when a character is being sampled, and to the
counts of the state otherwise (R50 to R62). -/
def LineIf.bitEnd (l : LineIf) : LineIf :=
  let level := majority l.samples
  let run := runAfter l.dominantRun level
  let l' := { l with bitPos := 0, dominantRun := run, breakDrive := l.breakAfter, breakWait := none }
  match l.shift with
  | some h =>
    { l' with shift := some { h with bits := h.bits ++ [level],
                                     noise := h.noise || disagree l.samples } }
  | none =>
    let time := l.windowTimer + 1
    if l.state = .window then
      { l' with windowTimer := time, vetoSeen := l.vetoSeen || vetoIn time run }
    else { l' with recessiveCount := l.countAfter level }

/-- The line interface looks for start edges: in IDLE, SETTLING and RECEIVING, between characters
(R51). While a start bit is being sampled it looks for none (log entry 43). -/
def LineIf.looks (l : LineIf) : Bool :=
  match l.state with
  | .idle | .settling | .receiving => l.shift.isNone
  | .contend | .sending | .window | .breaking | .fault => false

/-- One reference period in which the line has the given level (R49 to R51). A start edge is kept for
START_EDGE to take, since the start bit begins with its period. The level read last is kept within a
character too, so a line that turned dominant before the end of a stop bit gives no start edge there
(log entry 33). -/
def LineIf.period (d f : Nat) (level : Level) (l : LineIf) : LineIf :=
  if l.looks && l.lastRecessive && decide (level = .dominant) then
    { l with edge := true, lastRecessive := false }
  else
    let l := if l.bitPos = 0 then l.beginBit d f else l
    let l := { l with samples := if sampled d l.bitPos then l.samples ++ [level] else l.samples,
                      bitPos := l.bitPos + 1, lastRecessive := decide (level = .recessive) }
    if l.bitLen ≤ l.bitPos then l.bitEnd else l

/-- The level of LINE (R48): dominant when a station's drive reaches it. -/
def lineLevel (own : Level) : LineInput → Level
  | .released => own
  | .pulled => .dominant
  | .stuck => .recessive

/-- One period of the reference clock: LINE takes its level, and the bit being timed and the timebase
go on by one period (R49, R189). -/
def State.clock (s : State) : State :=
  let level := lineLevel s.ownDrive (s.lineIn.head?.getD .released)
  { s with line := s.line.period s.port.store.d s.port.store.f level, timebase := s.timebase + 1,
           lineIn := s.lineIn.tail }

/-! ## The start of a character and of an attempt (R51, R56, R71) -/

/-- The start bit that the line interface drives begins (R49, R56, R57). With `taken` the first period
of the bit is that of the start edge it aligned with. -/
def LineIf.driveStart (d f : Nat) (taken : Bool) (l : LineIf) : LineIf :=
  let l := { l with acc := 0, bitPos := 0, edge := false, shift := some ⟨[], false, true⟩ }
  if taken then { l.beginBit d f with bitPos := 1 } else l

/-- The start of an attempt (R56, R57, R71): the chosen entry becomes ACTIVE with its frame filled, and
the attempt counter is 0 unless it was last ACTIVE (R77). With no entry left, a break is driven from
the next bit on, and no failed attempt is counted (log entry 25). The report of the start is taken. -/
def State.beginAttempt (taken : Bool) (s : State) : State :=
  let l := s.line.driveStart s.port.store.d s.port.store.f taken
  match (chosenEntry s.tx.queue).bind fun i => (s.tx.queue[i]?).map fun e => (i, e) with
  | some (i, e) =>
    { s with
      line := { l with state := .contend, recessiveCount := 0, txChar := 0 },
      tx := { s.tx with queue := activate i s.tx.queue,
                        attempts := if e.lastActive then s.tx.attempts else 0,
                        frame := s.filledFrame e, startReport := false } }
  | none =>
    { s with line := { l.toBreak with breakDrive := some 0, breakWait := some .dominant },
             tx := { s.tx with startReport := false } }

/-- A start edge in SETTLING that counts as the own idle (R56): a frame is offered, and the edge stands
in the last D/4 periods of the bit time that would bring the count to the settle length. That bit time
is told by the count and the period alone, whatever its samples are so far (log entry 35). -/
def State.aligned (s : State) : Bool :=
  decide (s.line.state = .settling) && s.offered
    && decide (s.line.recessiveCount + 1 = s.line.settleLen)
    && decide (s.line.bitPos ≠ 0)
    && decide (s.line.bitLen - s.port.store.d / 4 ≤ s.line.bitPos)

/-- A start edge waits to be taken (R51). -/
def LineIf.edgeDue (l : LineIf) : Bool := l.looks && l.edge

/-- The start bit of a start edge has been sampled and is to be judged (R51); that it is judged at the end
of the bit is the model's choice (log entry 43). -/
def LineIf.startBit (l : LineIf) : Option Level :=
  match l.shift with
  | some ⟨[level], _, false⟩ => some level
  | _ => none

/-- START_EDGE is due: an edge waits, or a start bit waits for its judgement. -/
def State.startEdgeDue (s : State) : Bool := s.line.edgeDue || s.line.startBit.isSome

/-- The start bit of a foreign character begins with the period of the edge (R51). -/
def LineIf.takeEdge (d f : Nat) (l : LineIf) : LineIf :=
  let l := { l with acc := 0, edge := false, shift := some ⟨[], false, false⟩ }
  { l.beginBit d f with bitPos := 1 }

/-- The start bit is judged (R51): a character has begun, or the edge was a false start, which counts
as a recessive bit time. -/
def LineIf.judgeStart (level : Level) (l : LineIf) : LineIf :=
  match level with
  | .dominant =>
    { l with shift := l.shift.map fun h => { h with judged := true },
             state := match l.state with
               | .idle | .settling => .receiving
               | st => st,
             recessiveCount := 0 }
  | .recessive => { l with shift := none, recessiveCount := l.countAfter .recessive }

/-- The effect of START_EDGE (R51, R56). That the transmitter takes the report of an aligned start, and
chooses its entry (R71), in this same event is the model's choice (log entry 41). -/
def State.startEdgeEffect (s : State) : State :=
  match s.line.startBit with
  | some level => s.mapLine (LineIf.judgeStart level)
  | none =>
    if s.aligned then s.beginAttempt true
    else s.mapLine (LineIf.takeEdge s.port.store.d s.port.store.f)

/-- ATTEMPT_START is due (R56, R57): the line is idle and a frame is offered, or the line became idle
with a frame offered and the report of the start waits (log entry 5). While the start bit of a foreign
edge is being sampled, an offer waits for its judgement (log entry 34). -/
def State.attemptStartDue (s : State) : Bool :=
  decide (s.line.state = .idle) && s.line.shift.isNone
    && (s.offered || s.tx.startReport)

/-! ## Read-back (R57, R58) -/

/-- The last bit sampled of the character on the line: the level the station sent, and the one it read. -/
def State.lastBit (s : State) : Option (Level × Level) :=
  match s.line.shift with
  | some h => h.bits.getLast?.map fun read => (s.frameLevel (h.bits.length - 1), read)
  | none => none

/-- ARBITRATION_LOSS is due (R57): sent recessive, read dominant in CONTEND. -/
def State.lossDue (s : State) : Bool :=
  decide (s.line.state = .contend) && decide (s.lastBit = some (.recessive, .dominant))

/-- READBACK_MISMATCH is due (R57, R58): sent dominant, read recessive in CONTEND, or any difference
in SENDING. -/
def State.mismatchDue (s : State) : Bool :=
  match s.line.state with
  | .contend => decide (s.lastBit = some (.dominant, .recessive))
  | .sending =>
    match s.lastBit with
    | some (sent, read) => decide (sent ≠ read)
    | none => false
  | .idle | .receiving | .window | .settling | .breaking | .fault => false

/-- The effect of an arbitration loss (R57, R73). -/
def State.lossEffect (s : State) : State :=
  (s.mapLine fun l => { l with state := .receiving, recessiveCount := 0 }).endAttempt false

/-- The effect of a read-back mismatch (R58, R74). -/
def State.mismatchEffect (s : State) : State :=
  (s.mapLine (LineIf.driveBreak s.ownDrive)).endAttempt true

/-! ## Breaks and faults (R61, R62) -/

/-- BREAK is due (R61): the dominant run has reached 12 in a state other than WINDOW, BREAK and FAULT,
and is not a difference that R57 or R58 deals with, which comes first (log entry 42). -/
def State.breakDue (s : State) : Bool :=
  (match s.line.state with
    | .idle | .settling | .receiving | .contend | .sending => true
    | .window | .breaking | .fault => false)
    && decide (12 ≤ s.line.dominantRun) && !s.lossDue && !s.mismatchDue

/-- The effect of a break (R61): the own attempt fails as for a mismatch (R74), and nothing is driven. -/
def State.breakEffect (s : State) : State :=
  match s.line.state with
  | .contend | .sending => (s.mapLine LineIf.toBreak).endAttempt true
  | .idle | .settling | .receiving | .window | .breaking | .fault => s.mapLine LineIf.toBreak

/-- BREAK_END is due (R61): a recessive bit time after the run, the own break having been driven
(log entry 16). -/
def State.breakEndDue (s : State) : Bool :=
  decide (s.line.state = .breaking) && s.line.breakDrive.isNone
    && decide (1 ≤ s.line.recessiveCount)

/-- The effect of the end of a break (R55, R61). -/
def State.breakEndEffect (s : State) : State :=
  s.mapLine fun l => { l with state := .settling, settleLen := 11, recessiveCount := 1 }

/-- BREAK_DRIVE_END is due (R58): 16 bit times of the break have been driven. -/
def State.breakDriveEndDue (s : State) : Bool :=
  match s.line.breakDrive with
  | some n => decide (16 ≤ n)
  | none => false

/-- LINE_FAULT is due (R62): the run has reached 1024 bit times, so a break has been taken, or a window
holds it off (log entry 17). -/
def State.lineFaultDue (s : State) : Bool :=
  (match s.line.state with
    | .breaking | .window => true
    | .idle | .contend | .sending | .receiving | .settling | .fault => false)
    && decide (1024 ≤ s.line.dominantRun)

/-- FAULT: nothing is driven, no start edge is taken, and recessive bit times are counted (R62). -/
def LineIf.toFault (l : LineIf) : LineIf :=
  { l with state := .fault, shift := none, edge := false, framePos := 0, frameLen := none,
           recessiveCount := 0, vetoDriving := false, breakDrive := none, breakWait := none }

/-- The membership controller takes a line fault (R135). -/
def Controller.takeFault (c : Controller) : Controller :=
  { c with lineFault := true, silence := c.silence.map (Option.map SilenceTimer.freeze),
           listen := if c.station = .listening then c.listen.freeze else c.listen }

/-- The effect of a line fault (R62, R135). -/
def State.lineFaultEffect (s : State) : State :=
  ((s.mapLine LineIf.toFault).mapCtrl Controller.takeFault).post .lineFault 0

/-- LINE_RECOVERY is due (R62). -/
def State.lineRecoveryDue (s : State) : Bool :=
  decide (s.line.state = .fault) && decide (22 ≤ s.line.recessiveCount)

/-- The membership controller takes the recovery of the line (R136, 1 and 2). -/
def Controller.takeRecovery (c : Controller) : Controller :=
  { c with lineFault := false, silence := c.silence.map (Option.map SilenceTimer.resume),
           listen := c.listen.resume }

/-- The line interface goes to IDLE and reports the idle line: with a frame offered, it drives the
start bit of character 1 at once, and the report of the start waits for the transmitter (R55, R56, R71;
log entry 5). -/
def State.goIdle (s : State) : State :=
  { s with line := { s.line with state := .idle, recessiveCount := 0 },
           tx := { s.tx with startReport := s.offered } }

/-- The effect of the line's recovery (R62, R136). -/
def State.lineRecoveryEffect (s : State) : State :=
  let s := (s.goIdle.mapCtrl Controller.takeRecovery).post .lineRestored 0
  if s.ctrl.station.inGroup then s.detach .lineFault else s

/-! ## Characters, gaps and idle (R52 to R55) -/

/-- The item of the stream is a character. -/
def StreamItem.isChar : StreamItem → Bool
  | .char _ => true
  | .truncation | .lineBreak | .opening | .result _ => false

/-- The overrun mark set on the last character of the stream, which waits in the shift stage (R84). -/
def markOverrun : List StreamItem → List StreamItem
  | [] => []
  | .char c :: rest =>
    if rest.any StreamItem.isChar then .char c :: markOverrun rest
    else .char { c with overrun := true } :: rest
  | .truncation :: rest => .truncation :: markOverrun rest
  | .lineBreak :: rest => .lineBreak :: markOverrun rest
  | .opening :: rest => .opening :: markOverrun rest
  | .result r :: rest => .result r :: markOverrun rest

/-- A completed character in the stream (R52, R84): the FIFO holds 4 and one waits; a further one is
lost. -/
def pushChar (c : RxChar) (stream : List StreamItem) : List StreamItem :=
  if (stream.filter StreamItem.isChar).length < 5 then stream ++ [.char c] else markOverrun stream

/-- The character in the shift stage at the end of its stop bit (R52). -/
def completedChar (h : Shift) : RxChar :=
  { value := dataValue h.bits, marker := (h.bits[9]?).getD .recessive, noise := h.noise,
    framing := decide (h.bits[10]? = some .dominant), overrun := false }

/-- The frame position and received length after a character (R53). -/
def LineIf.positionAfter (l : LineIf) (c : RxChar) : Nat × Option Byte :=
  match c.marker with
  | .recessive => (1, none)
  | .dominant =>
    if l.framePos = 0 then (0, l.frameLen)
    else (l.framePos + 1, if l.framePos + 1 = 6 then some c.value else l.frameLen)

/-- The frame is complete at this position (R36, R53). -/
def frameEnds (position : Nat) (length : Option Byte) : Bool :=
  match length with
  | some l => decide (position = frameLength l)
  | none => false

/-- The veto window opens (R53, R59): its report enters the stream, and it is the window of the own
attempt when the frame ended in SENDING (R60). -/
def LineIf.openWindow (l : LineIf) : LineIf :=
  { l with state := .window, shift := none, framePos := 0, frameLen := none, recessiveCount := 0,
           windowTimer := 0, vetoDriving := false, vetoSeen := false,
           windowOwn := decide (l.state = .sending), stream := l.stream ++ [.opening] }

/-- What follows a character that does not complete a frame: the own next start bit, with the
accumulator at 0 and SENDING after character 2 (R49, R57), or the gap (R54). -/
def LineIf.nextChar (l : LineIf) : LineIf :=
  let next := { l with acc := 0, shift := some ⟨[], false, true⟩, txChar := l.txChar + 1 }
  match l.state with
  | .contend => if l.txChar + 1 = 2 then { next with state := .sending } else next
  | .sending => next
  | .idle | .receiving | .window | .settling | .breaking | .fault =>
    { l with shift := none, recessiveCount := 0 }

/-- The shift stage holds a whole character of a state in which characters complete (R52). -/
def LineIf.wholeChar (l : LineIf) : Option Shift :=
  match l.state with
  | .receiving | .contend | .sending => l.shift.filter fun h => decide (11 ≤ h.bits.length)
  | .idle | .window | .settling | .breaking | .fault => none

/-- CHARACTER_COMPLETE is due (R52): no loss, mismatch or break takes the bit first. That a break goes
first on a stop bit that brings the run to 12 is the model's choice (log entry 42). -/
def State.charDue (s : State) : Bool :=
  s.line.wholeChar.isSome && !s.lossDue && !s.mismatchDue && !s.breakDue

/-- A character completes (R52, R53, R57, R59). -/
def LineIf.complete (h : Shift) (l : LineIf) : LineIf :=
  let c := completedChar h
  let p := l.positionAfter c
  let l := { l with stream := pushChar c l.stream, framePos := p.1, frameLen := p.2 }
  if frameEnds p.1 p.2 then l.openWindow else l.nextChar

/-- The effect of CHARACTER_COMPLETE. -/
def State.charEffect (s : State) : State :=
  match s.line.wholeChar with
  | some h => s.mapLine (LineIf.complete h)
  | none => s

/-- GAP_EXPIRY is due (R54). -/
def State.gapDue (s : State) : Bool :=
  decide (s.line.state = .receiving) && s.line.shift.isNone && !s.line.edge
    && decide (4 ≤ s.line.recessiveCount)

/-- The effect of a gap (R54). -/
def LineIf.gap (l : LineIf) : LineIf :=
  if l.framePos = 0 then { l with state := .settling, settleLen := 11, recessiveCount := 4 }
  else { l with state := .settling, settleLen := 33, recessiveCount := 4, framePos := 0,
                frameLen := none, stream := l.stream ++ [.truncation] }

/-- LINE_IDLE is due (R55). -/
def State.idleDue (s : State) : Bool :=
  decide (s.line.state = .settling) && s.line.shift.isNone && !s.line.edge
    && decide (s.line.settleLen ≤ s.line.recessiveCount)

/-! ## The veto window (R59, R60) -/

/-- VETO_DRIVE_END is due (R59): 16 bit times of the window have passed. -/
def State.vetoDriveEndDue (s : State) : Bool :=
  s.line.vetoDriving && decide (16 ≤ s.line.windowTimer)

/-- WINDOW_CLOSE is due (R60). -/
def State.windowCloseDue (s : State) : Bool :=
  decide (s.line.state = .window) && decide (22 ≤ s.line.windowTimer)

/-- The line interface at the close of its window (R60). -/
def LineIf.closeWindow (l : LineIf) : LineIf :=
  let l' := { l with stream := l.stream ++ [StreamItem.result (!l.vetoSeen)], vetoDriving := false,
                     windowOwn := false, recessiveCount := 0 }
  if l.dominantRun = 0 then { l' with state := .settling, settleLen := 11 }
  else { l' with state := .breaking }

/-- The effect of the close (R60, R75). That the transmitter takes its result in this same event is the
model's choice (log entry 44). -/
def State.windowCloseEffect (s : State) : State :=
  let s' := s.mapLine LineIf.closeWindow
  if s.line.windowOwn then
    if s.line.vetoSeen then s'.endAttempt true else s'.acceptAttempt
  else s'

/-! ## The meanings of the line events -/

/-- START_EDGE (R51, R56). -/
def execStartEdge (s : State) : Host.Outcome State Fault Refusal :=
  whenDue s.startEdgeDue State.startEdgeEffect s

/-- ATTEMPT_START (R56, R57, R71). -/
def execAttemptStart (s : State) : Host.Outcome State Fault Refusal :=
  whenDue s.attemptStartDue (State.beginAttempt false) s

/-- CHARACTER_COMPLETE (R52, R53). -/
def execCharacterComplete (s : State) : Host.Outcome State Fault Refusal :=
  whenDue s.charDue State.charEffect s

/-- GAP_EXPIRY (R54). -/
def execGapExpiry (s : State) : Host.Outcome State Fault Refusal :=
  whenDue s.gapDue (State.mapLine LineIf.gap) s

/-- LINE_IDLE (R55). -/
def execLineIdle (s : State) : Host.Outcome State Fault Refusal :=
  whenDue s.idleDue State.goIdle s

/-- ARBITRATION_LOSS (R57, R73). -/
def execArbitrationLoss (s : State) : Host.Outcome State Fault Refusal :=
  whenDue s.lossDue State.lossEffect s

/-- READBACK_MISMATCH (R58, R74). -/
def execReadbackMismatch (s : State) : Host.Outcome State Fault Refusal :=
  whenDue s.mismatchDue State.mismatchEffect s

/-- VETO_DRIVE_END (R59). -/
def execVetoDriveEnd (s : State) : Host.Outcome State Fault Refusal :=
  whenDue s.vetoDriveEndDue (State.mapLine fun l => { l with vetoDriving := false }) s

/-- BREAK_DRIVE_END (R58). -/
def execBreakDriveEnd (s : State) : Host.Outcome State Fault Refusal :=
  whenDue s.breakDriveEndDue (State.mapLine fun l => { l with breakDrive := none, breakWait := none }) s

/-- WINDOW_CLOSE (R60, R75). -/
def execWindowClose (s : State) : Host.Outcome State Fault Refusal :=
  whenDue s.windowCloseDue State.windowCloseEffect s

/-- BREAK (R61, R74). -/
def execBreakTaken (s : State) : Host.Outcome State Fault Refusal :=
  whenDue s.breakDue State.breakEffect s

/-- BREAK_END (R61). -/
def execBreakEnd (s : State) : Host.Outcome State Fault Refusal :=
  whenDue s.breakEndDue State.breakEndEffect s

/-- LINE_FAULT (R62, R135). -/
def execLineFault (s : State) : Host.Outcome State Fault Refusal :=
  whenDue s.lineFaultDue State.lineFaultEffect s

/-- LINE_RECOVERY (R62, R136). -/
def execLineRecovery (s : State) : Host.Outcome State Fault Refusal :=
  whenDue s.lineRecoveryDue State.lineRecoveryEffect s

end Sys2Proof.Machine
end

