-- ==== Sys2Proof/Machine/Receiver.lean ====
section
/-! DEFINITION. The receiver and the table engine's application (chapter 5): the items of the stream,
the window opening with its veto decision, the window result, the handoff with its checks, and the
application of the frame in the handoff slot. -/

namespace Sys2Proof.Machine

/-! ## Items of the stream (R84 to R86) -/

/-- A further character appended to the frame in progress (R85): past its last character it sets the
overrun flag, and past 32 it is not kept (log entry 22). -/
def Assembly.append (c : RxChar) (a : Assembly) : Assembly :=
  let past : Bool := match a.length with
    | some l => decide (frameLength l ≤ a.chars.length)
    | none => false
  { chars := if a.chars.length < 32 then a.chars ++ [c] else a.chars,
    overrun := a.overrun || c.overrun || past }

/-- A character taken (R85). -/
def Receiver.takeChar (c : RxChar) (r : Receiver) : Receiver :=
  match c.marker with
  | .recessive => { r with assembly := some { chars := [c], overrun := c.overrun } }
  | .dominant => { r with assembly := r.assembly.map (Assembly.append c) }

/-- A truncation or break report taken (R86). -/
def Receiver.discardFrame (r : Receiver) : Receiver := { r with assembly := none }

/-- The result of a window on the inbox (R93): the PROVISIONAL frame at the tail becomes ACCEPTED or
is discarded. -/
def inboxResult (clean : Bool) : List InboxFrame → List InboxFrame
  | [] => []
  | [f] =>
    if f.accepted then [f]
    else if clean && !f.ownVeto then [{ f with accepted := true }]
    else []
  | f :: g :: rest => f :: inboxResult clean (g :: rest)

/-- The result shows that the own veto did not reach the line, on a sequenced frame, in a state with a
replica (R93). -/
def State.vetoFailed (clean : Bool) (s : State) : Bool :=
  match s.rx.inbox.getLast? with
  | some f =>
    clean && !f.accepted && f.ownVeto && f.frame.isSequenced && s.ctrl.station.inGroup
  | none => false

/-- A window result taken (R93). -/
def State.takeResult (clean : Bool) (s : State) : State :=
  let s' := s.mapRx fun r => { r with inbox := inboxResult clean r.inbox }
  if s.vetoFailed clean then s'.detach .diverged else s'

/-- An item taken by its rule; a window opening is answered by WINDOW_OPENING only. -/
def State.takeItem (s : State) : StreamItem → State
  | .char c => s.mapRx (Receiver.takeChar c)
  | .truncation | .lineBreak => s.mapRx Receiver.discardFrame
  | .result clean => s.takeResult clean
  | .opening => s

/-- The head of the stream removed. -/
def LineIf.popItem (l : LineIf) : LineIf := { l with stream := l.stream.tail }

/-! ## The veto decision (R88 to R91) -/

/-- The kinds of veto (R89). -/
inductive VetoKind where
  | failure | mismatch
deriving DecidableEq, Repr

/-- The receiver's expected TSEQ (R90). -/
def State.receiverTseq (s : State) : Tseq :=
  s.expectedTseq
    + BitVec.ofNat 16 (s.rx.inbox.countP fun f => f.accepted && f.frame.isSequenced)
    + (if s.rx.handoff.any Frame.isSequenced then 1 else 0)

/-- Causes 1 to 5 of R89. -/
def State.failureCause (a : Assembly) (s : State) : Bool :=
  a.chars.any (fun c => c.noise || c.framing) || a.overrun || a.short
    || (match a.length with
        | some l => decide (25 ≤ l.toNat)
        | none => false)
    || !a.checkPasses || decide (2 ≤ s.rx.inbox.length)

/-- Cause 6 of R89. -/
def State.mismatchCause (f : Frame) (s : State) : Bool :=
  match f.known with
  | some (kind, sender) =>
    kind.sequenced && s.table.junior s.own sender && decide (f.tseq ≠ s.receiverTseq)
  | none => false

/-- The decision at the opening (R88, R89). -/
def State.vetoDecision (a : Assembly) (f : Frame) (s : State) : Option VetoKind :=
  if s.ctrl.station.participates then
    if s.failureCause a then some .failure
    else if s.mismatchCause f then some .mismatch
    else none
  else none

/-- The own-veto counter and its limit (R91), and the PRESENCE of a mismatch veto (R90, R133). -/
def State.countVeto (decision : Option VetoKind) (s : State) : State :=
  match decision with
  | none => s.mapRx fun r => { r with ownVetoes := 0 }
  | some .mismatch => s.owePresence
  | some .failure =>
    let s' := s.mapRx fun r => { r with ownVetoes := r.ownVetoes + 1 }
    if 8 ≤ s.rx.ownVetoes + 1 then s'.detach .vetoLimit else s'

/-- The complete frame placed in the inbox, or discarded when the inbox holds 2 (R92). -/
def Receiver.place (f : Frame) (vetoed : Bool) (r : Receiver) : Receiver :=
  if r.inbox.length < 2 then
    { r with inbox := r.inbox ++ [{ frame := f, accepted := false, ownVeto := vetoed }] }
  else r

/-- The line interface takes the decision (R59): it drives the veto while its window is open. -/
def LineIf.takeDecision (veto : Bool) (l : LineIf) : LineIf :=
  { l with vetoDriving := l.vetoDriving || (veto && decide (l.state = .window)) }

/-- The answer to an opening that finds a frame (R87, 2 to 5, in that order). -/
def State.answerOpening (a : Assembly) (s : State) : State :=
  let f := a.frame (Config.missingCharacter s.freeCount)
  let decision := s.vetoDecision a f
  let s := { s with freeCount := if a.short then s.freeCount + 1 else s.freeCount }
  let s := (s.mapLine (LineIf.takeDecision decision.isSome)).countVeto decision
  (s.mapRx Receiver.discardFrame).mapRx (Receiver.place f decision.isSome)

/-- The items that stand before the first opening, each taken by its rule (R87, 1; log entry 28). -/
def State.takeUpToOpening (s : State) : State :=
  let before := s.line.stream.takeWhile fun x => decide (x ≠ .opening)
  before.foldl State.takeItem
    (s.mapLine fun l => { l with stream := l.stream.drop (before.length + 1) })

/-- The effect of WINDOW_OPENING (R87): an opening that finds no frame is answered "no veto". -/
def State.openingEffect (s : State) : State :=
  let s := s.takeUpToOpening
  match s.rx.assembly with
  | some a => s.answerOpening a
  | none => s

/-! ## Handoff (R94 to R101) -/

/-- The ACCEPTED frame at the head of the inbox, when the handoff slot is empty (R94). -/
def State.handoffFrame (s : State) : Option Frame :=
  match s.rx.handoff, s.rx.inbox with
  | none, f :: _ => if f.accepted then some f.frame else none
  | _, _ => none

/-- R98 applies to the kind: sequenced, PRESENCE or SNAPSHOT. -/
def FrameKind.carriesTseq (kind : FrameKind) : Bool :=
  kind.sequenced || decide (kind = .presence) || decide (kind = .snapshot)

/-- The frame's TSEQ differs from the own expected TSEQ, and its sender is a roster member other than
the own station (R98). -/
def State.tseqDiffers (kind : FrameKind) (sender : Station) (f : Frame) (s : State) : Bool :=
  kind.carriesTseq && decide (sender ≠ s.own) && decide (sender ∈ s.table.roster)
    && decide (f.tseq ≠ s.expectedTseq)

/-- R99 and R100: a frame goes to its recipient by kind and station state. -/
def State.toRecipient (kind : FrameKind) (sender : Station) (f : Frame) (s : State) : State :=
  match kind with
  | .claim | .drop | .evict | .leave | .admission =>
    if s.ctrl.station = .catchup then s.placePending kind sender f
    else if sender ∈ s.table.roster then s.mapRx fun r => { r with handoff := some f }
    else s
  | .snapshot =>
    if s.ctrl.station = .catchup ∧ carriesPart f.body = true then s.takePart sender f else s
  | .joinAsk => s.takeJoinAsk sender
  | .announce | .presence => s

/-- The checks R96 to R98 in order, and then the recipient. -/
def State.checked (kind : FrameKind) (sender : Station) (f : Frame) (s : State) : State :=
  if f.tag < s.table.tag then s.detach .foreignGroup
  else if s.table.tag < f.tag then s
  else
    let s := s.silenceReport sender
    if s.tseqDiffers kind sender f then
      if s.table.senior s.own sender then s.detach .diverged
      else s.owePresence.toRecipient kind sender f
    else s.toRecipient kind sender f

/-- A SNAPSHOT that carries no part is set aside in the states without a replica too (R95; log
entry 18). -/
def shortSnapshot (kind : FrameKind) (f : Frame) : Bool :=
  decide (kind = .snapshot) && !carriesPart f.body

/-- A frame handed on by station state (R95, R100, R101). -/
def State.handOn (f : Frame) (s : State) : State :=
  match f.known with
  | none => s
  | some (kind, sender) =>
    match s.ctrl.station with
    | .offline | .holdoff => s
    | .listening => if shortSnapshot kind f then s else s.groupHeard kind f
    | .founding => if shortSnapshot kind f then s else s.foundingTakes kind sender f
    | .asking => if shortSnapshot kind f then s else s.askingTakes kind sender f
    | .catchup | .member | .leaving => s.checked kind sender f

/-- The inbox head removed. -/
def Receiver.popInbox (r : Receiver) : Receiver := { r with inbox := r.inbox.tail }

/-- The effect of HANDOFF (R94). -/
def State.handoffEffect (s : State) : State :=
  match s.handoffFrame with
  | some f => (s.mapRx Receiver.popInbox).handOn f
  | none => s

/-- The handoff slot emptied. -/
def Receiver.emptySlot (r : Receiver) : Receiver := { r with handoff := none }

/-- The effect of APPLICATION (R14, R94): the frame in the handoff slot is applied whole and taken up. -/
def State.applicationEffect (s : State) : State :=
  match s.rx.handoff with
  | some f => (s.mapRx Receiver.emptySlot).applyFrame f
  | none => s

/-! ## The meanings of the receiver's events -/

/-- A character stands at the head of the stream (R84). -/
def State.charAtHead (s : State) : Bool :=
  match s.line.stream with
  | .char _ :: _ => true
  | _ => false

/-- The head of the stream taken (R84). -/
def State.takeHead (s : State) : State :=
  match s.line.stream with
  | x :: _ => (s.mapLine LineIf.popItem).takeItem x
  | [] => s

/-- A window result stands at the head of the stream (R93). -/
def State.resultAtHead (s : State) : Bool :=
  match s.line.stream with
  | .result _ :: _ => true
  | _ => false

/-- TAKE_CHARACTER (R85). -/
def execTakeCharacter (s : State) : Host.Outcome State Fault Refusal :=
  whenDue s.charAtHead State.takeHead s

/-- TAKE_TRUNCATION (R86). -/
def execTakeTruncation (s : State) : Host.Outcome State Fault Refusal :=
  whenDue (decide (s.line.stream.head? = some .truncation)) State.takeHead s

/-- TAKE_BREAK (R86). -/
def execTakeBreak (s : State) : Host.Outcome State Fault Refusal :=
  whenDue (decide (s.line.stream.head? = some .lineBreak)) State.takeHead s

/-- WINDOW_OPENING is due: an opening stands in the stream (R87). -/
def State.openingDue (s : State) : Bool := s.line.stream.contains .opening

/-- WINDOW_OPENING (R87). -/
def execWindowOpening (s : State) : Host.Outcome State Fault Refusal :=
  whenDue s.openingDue State.openingEffect s

/-- WINDOW_RESULT (R93). -/
def execWindowResult (s : State) : Host.Outcome State Fault Refusal :=
  whenDue s.resultAtHead State.takeHead s

/-- HANDOFF (R94 to R101). -/
def execHandoff (s : State) : Host.Outcome State Fault Refusal :=
  whenDue s.handoffFrame.isSome State.handoffEffect s

/-- APPLICATION (R14). -/
def execApplication (s : State) : Host.Outcome State Fault Refusal :=
  whenDue s.rx.handoff.isSome State.applicationEffect s

end Sys2Proof.Machine
end

