-- ==== Sys2Proof/Machine/Owners.lean ====
section
/-! DEFINITION. The events of the owners of frames: the transmitter's reports (R76), the replay steps
(R126), the timebase tick (R189) and the expiries of the timers. -/

namespace Sys2Proof.Machine

/-! ## The transmitter's reports (R76) -/

/-- The owner that a report is for (R76). -/
def TxReport.owner : TxReport → FrameOwner
  | .accepted _ owner | .withdrawn _ owner => owner

/-- The path on which a report travels: that of its entry's owner (R76). -/
def TxReport.path : TxReport → ReportPath
  | .accepted _ (.claimUnit _) | .withdrawn _ (.claimUnit _) => .claimUnit
  | .accepted _ .controller | .withdrawn _ .controller => .controller

/-- The oldest report that waits on a path. That an owner takes the reports of one path in the order in
which the transmitter made them is the model's choice (R76; log entry 39). -/
def Transmitter.firstReport (path : ReportPath) (t : Transmitter) : Option TxReport :=
  t.reports.find? fun r => decide (r.path = path)

/-- The oldest report of a path taken away. -/
def Transmitter.popReport (path : ReportPath) (t : Transmitter) : Transmitter :=
  { t with reports := t.reports.eraseP fun r => decide (r.path = path) }

/-- The frame mark that names a kind of frame of the claim unit (R155). -/
def markOf (kind : FrameKind) : FrameMark :=
  if kind = .drop then .drop else .claim

/-- The frame mark after a report for a frame of this kind (R155): it is cleared when it names that
frame. A report taken after the record's DROP has been queued leaves that mark (log entry 12). Since
every report for a record is taken before the record is taken for another claim, the frame is always
of the claim that the record holds or held last (R198; log entry 32). -/
def ClaimRecord.unmark (kind : FrameKind) (r : ClaimRecord) : ClaimRecord :=
  { r with mark := if r.mark = markOf kind then .none else r.mark }

/-- ACCEPTED for a frame of the membership controller, by kind (R110, R113, R120, R129, R139, R142). A
report names only its kind (R76), so in ASKING every JOIN-ASK accepted starts the ask timer, one that
was sent for an earlier asked tag among them (R105; log entry 38). -/
def State.controllerAccepted (kind : FrameKind) (s : State) : State :=
  match kind with
  | .announce => if s.ctrl.station = .founding then s.foundGroup s.ctrl.askedTag else s
  | .joinAsk =>
    if s.ctrl.station = .asking then s.mapCtrl fun c => { c with ask := .running c.workingE } else s
  | .snapshot => s.partAccepted
  | .evict =>
    match s.ctrl.evictInHand with
    | some ⟨x, _⟩ => (s.unlist x).resolveEvict
    | none => s
  | .leave =>
    match s.ctrl.station with
    | .leaving => s.detach .left
    | .catchup => if s.ctrl.failed then s.endFailedCatchup else s
    | .offline | .listening | .founding | .asking | .member | .holdoff => s
  | .admission | .presence | .claim | .drop => s

/-- The presence timer restarts when an own frame is accepted (R132); it runs only in CATCHUP, MEMBER
and LEAVING. -/
def State.presenceHeard (s : State) : State :=
  if s.ctrl.station.inGroup then s.restartPresence else s

/-- A report of acceptance taken by its owner (R76). For a frame of the claim unit the controller hears
of it in the same event (R75; log entry 31). The presence timer restarts at every such report, that of an
ANNOUNCE taken after the station has founded among them (R132; log entry 45). -/
def State.takeAccepted (kind : FrameKind) (owner : FrameOwner) (s : State) : State :=
  match owner with
  | .claimUnit k => s.presenceHeard.mapRecord k (ClaimRecord.unmark kind)
  | .controller => s.presenceHeard.controllerAccepted kind

/-- A WITHDRAWN report taken by its owner (R79, R121, R139, R155, R162). -/
def State.takeWithdrawn (kind : FrameKind) (owner : FrameOwner) (s : State) : State :=
  match owner with
  | .claimUnit k =>
    let s := s.mapRecord k (ClaimRecord.unmark kind)
    match s.records[k].state, s.records[k].cancelOwed with
    | .queued, some reason => s.changeRecord k (ClaimRecord.completed reason.outcome)
    | _, _ => s
  | .controller =>
    match kind with
    | .evict => if s.ctrl.evictInHand.isSome then s.resolveEvict else s
    | .snapshot => s.dropPartReport
    | .announce | .joinAsk | .presence | .leave | .admission | .drop | .claim => s

/-- A report taken by its owner (R76). -/
def State.takeReport (s : State) : TxReport → State
  | .accepted kind owner => s.takeAccepted kind owner
  | .withdrawn kind owner => s.takeWithdrawn kind owner

/-- Every report that waits for a frame of the record taken by the claim unit, the oldest first (R76,
R198). -/
def State.takeReportsOn (k : RecordIndex) (s : State) : State :=
  (s.tx.reports.filter fun r => decide (r.owner = .claimUnit k)).foldl State.takeReport
    (s.mapTx fun t =>
      { t with reports := t.reports.filter fun r => decide (r.owner ≠ .claimUnit k) })

/-- ACCEPTED_REPORT is due on a path: the oldest report there is an ACCEPTED. -/
def State.acceptedDue (path : ReportPath) (s : State) : Bool :=
  match s.tx.firstReport path with
  | some (.accepted _ _) => true
  | _ => false

/-- WITHDRAWN_REPORT is due on a path: the oldest report there is a WITHDRAWN. -/
def State.withdrawnDue (path : ReportPath) (s : State) : Bool :=
  match s.tx.firstReport path with
  | some (.withdrawn _ _) => true
  | _ => false

/-- The oldest report of a path taken by its owner. -/
def State.reportEffect (path : ReportPath) (s : State) : State :=
  match s.tx.firstReport path with
  | some report => (s.mapTx (Transmitter.popReport path)).takeReport report
  | none => s

/-- ACCEPTED_REPORT (R76). -/
def execAcceptedReport (path : ReportPath) (s : State) : Host.Outcome State Fault Refusal :=
  whenDue (s.acceptedDue path) (State.reportEffect path) s

/-- WITHDRAWN_REPORT (R79). -/
def execWithdrawnReport (path : ReportPath) (s : State) : Host.Outcome State Fault Refusal :=
  whenDue (s.withdrawnDue path) (State.reportEffect path) s

/-! ## Replay (R126, R127) -/

/-- The effect of a replay step: the frame at the head leaves the queue and the count falls by 1. -/
def State.replayEffect (s : State) : State :=
  match s.ctrl.pendingApply with
  | f :: rest =>
    ((s.mapCtrl fun c =>
        { c with pendingApply := rest, catchupCount := c.catchupCount - 1 }).replayFrame f).replayEnd
  | [] => s

/-- REPLAY_STEP (R126). -/
def execReplayStep (s : State) : Host.Outcome State Fault Refusal :=
  whenDue s.replayDue State.replayEffect s

/-! ## The timebase (R189) -/

/-- A tick of the wait timer of a record (R163). -/
def ClaimRecord.tick (r : ClaimRecord) : ClaimRecord :=
  { r with waitTimer := r.waitTimer.map fun n => n - 1 }

/-- A tick of the timers of the membership controller (R105, R132, R134, R147). -/
def Controller.tick (c : Controller) : Controller :=
  { c with listen := c.listen.tick, ask := c.ask.tick, stall := c.stall.tick,
           presence := c.presence.tick, holdoff := c.holdoff.tick,
           silence := c.silence.map (Option.map SilenceTimer.tick) }

/-- The timebase has counted its divisor (R189). -/
def State.tickDue (s : State) : Bool := decide (s.port.store.timebase ≤ s.timebase)

/-- The effect of a tick (R189). -/
def State.tickEffect (s : State) : State :=
  { s with timebase := 0, ctrl := s.ctrl.tick, records := s.records.map ClaimRecord.tick }

/-- TIMEBASE_TICK (R189). -/
def execTimebaseTick (s : State) : Host.Outcome State Fault Refusal :=
  whenDue s.tickDue State.tickEffect s

/-! ## Expiries -/

/-- The effect of the listen timer's expiry (R108). -/
def State.listenEffect (s : State) : State :=
  let s := s.mapCtrl fun c => { c with listen := .stopped }
  match s.ctrl.lowestTag with
  | none => s.enterFounding
  | some tag => (s.mapCtrl fun c => { c with askedTag := tag }).enterAsking

/-- The end of ASKING with ASK-FAILED (R114). -/
def State.askFailed (s : State) : State := (s.clearGroup.reportDetach .askFailed).enterHoldoff

/-- The effect of the ask timer's expiry (R114). -/
def State.askEffect (s : State) : State :=
  if s.ctrl.askCount < 3 then
    (s.mapCtrl fun c =>
      { c with ask := .stopped, askCount := c.askCount + 1,
               owed := { c.owed with joinAsk := true } }).handOut
  else s.askFailed

/-- The effect of the stall timer's expiry (R124, R128, R129). -/
def State.stallEffect (s : State) : State :=
  let s' := s.mapCtrl fun c => { c with stall := .stopped }
  if s.ctrl.failed then s'.endFailedCatchup else s'.catchupFailure

/-- The effect of the presence timer's expiry (R132). -/
def State.presenceEffect (s : State) : State := s.owePresence.restartPresence

/-- The silence timer of the station has run out and has not been taken. -/
def State.silenceDue (x : Station) (s : State) : Bool :=
  decide (s.ctrl.silence[x] = some (.running 0))

/-- The effect of a silence timer's expiry (R137). -/
def State.silenceEffect (x : Station) (s : State) : State :=
  let s := s.mapCtrl fun c =>
    { c with silence := c.silence.set x (some .expired), evictions := c.evictions ++ [x] }
  match s.ctrl.evictInHand with
  | none => (s.mapCtrl fun c => { c with evictInHand := some ⟨x, .owed⟩ }).handOut
  | some _ => s

/-- The effect of the holdoff timer's expiry (R147). -/
def State.holdoffEffect (s : State) : State :=
  (s.mapCtrl fun c => { c with holdoff := .stopped }).enterListening

/-- The wait timer of the record has run out and has not been taken. -/
def State.waitDue (k : RecordIndex) (s : State) : Bool :=
  decide (s.records[k].waitTimer = some 0)

/-- The effect of a wait timer's expiry (R164). -/
def State.waitEffect (k : RecordIndex) (s : State) : State :=
  match s.records[k].state, s.records[k].cancelOwed with
  | .queued, none => s.withdrawQueued .timedOut k
  | .waiting, _ => s.dropRecord .timedOut k
  | _, _ => s.mapRecord k fun r => { r with waitTimer := none }

/-- LISTEN_TIMER_EXPIRY (R108). -/
def execListenTimerExpiry (s : State) : Host.Outcome State Fault Refusal :=
  whenDue (s.ctrl.listen.due && decide (s.ctrl.station = .listening)) State.listenEffect s

/-- ASK_TIMER_EXPIRY (R114). -/
def execAskTimerExpiry (s : State) : Host.Outcome State Fault Refusal :=
  whenDue (s.ctrl.ask.due && decide (s.ctrl.station = .asking)) State.askEffect s

/-- STALL_TIMER_EXPIRY (R124, R129). -/
def execStallTimerExpiry (s : State) : Host.Outcome State Fault Refusal :=
  whenDue (s.ctrl.stall.due && decide (s.ctrl.station = .catchup)) State.stallEffect s

/-- PRESENCE_TIMER_EXPIRY (R132). -/
def execPresenceTimerExpiry (s : State) : Host.Outcome State Fault Refusal :=
  whenDue (s.ctrl.presence.due && s.ctrl.station.inGroup) State.presenceEffect s

/-- SILENCE_TIMER_EXPIRY (R137). -/
def execSilenceTimerExpiry (x : Station) (s : State) : Host.Outcome State Fault Refusal :=
  whenDue (s.silenceDue x) (State.silenceEffect x) s

/-- HOLDOFF_TIMER_EXPIRY (R147). -/
def execHoldoffTimerExpiry (s : State) : Host.Outcome State Fault Refusal :=
  whenDue (s.ctrl.holdoff.due && decide (s.ctrl.station = .holdoff)) State.holdoffEffect s

/-- WAIT_TIMER_EXPIRY (R164). -/
def execWaitTimerExpiry (k : RecordIndex) (s : State) : Host.Outcome State Fault Refusal :=
  whenDue (s.waitDue k) (State.waitEffect k) s

end Sys2Proof.Machine
end

