-- ==== Sys2Proof/Machine/Port.lean ====
section
/-! DEFINITION. The local port (chapter 10): device reset, transactions and characters, the taking of a
command with its answer, and the fourteen commands and the unknown command. -/

namespace Sys2Proof.Machine

/-! ## Device reset (R26, R184, R185) -/

/-- DEVICE_RESET: every block at its device-reset value, the straps sampled, and an AUTO start taken
(R26, R63, R65, R83, R104, R131, R151, R170, R178, R184, R185). -/
def execDeviceReset (straps : BitVec 5) (auto csLow : Bool) (s : State) :
    Host.Outcome State Fault Refusal :=
  let s := s.deviceReset straps.toFin auto csLow
  .next (if auto then s.enterListening else s)

/-! ## Transactions and characters (R178 to R181) -/

/-- A falling edge of CS# (R178). -/
def Port.openTransaction (p : Port) : Port :=
  if p.csLow then p
  else { p with transaction := .command, csLow := true, buffer := [], reply := .none,
                miso := some 0 }

/-- A rising edge of CS# (R178, R181): a complete command is not withdrawn. -/
def Port.closeTransaction (p : Port) : Port :=
  if p.csLow then
    { p with transaction := .closed, csLow := false, buffer := [], reply := .none, miso := none }
  else p

/-- A command complete in its transaction (R179, R180): not yet taken, held, or discarded. -/
def Port.completeCommand (i : Instr) (p : Port) : Port :=
  match p.complete, p.held with
  | none, _ => { p with complete := some i, reply := .awaitsComplete }
  | some _, none => { p with held := some i, reply := .awaitsHeld }
  | some _, some _ => { p with reply := .discarded }

/-- A character received in COMMAND (R179); `fillers` is the free number of filler characters that
come before the start character (log entry 6). -/
def Port.commandCharacter (fillers : Nat) (mosi : Byte) (p : Port) : Port :=
  let p := { p with buffer := p.buffer ++ [mosi], miso := some 0 }
  match parseCommand p.buffer with
  | some i => { p.completeCommand i with transaction := .response, fillers := fillers }
  | none => p

/-- A character clocked in RESPONSE (R179): MOSI is ignored, and MISO goes on to the next character. -/
def Port.responseCharacter (p : Port) : Port :=
  match p.reply with
  | .ready (b :: rest) =>
    if p.fillers = 0 then { p with miso := some b, reply := .ready rest }
    else { p with miso := some 0, fillers := p.fillers - 1 }
  | .ready [] | .none | .awaitsComplete | .awaitsHeld | .discarded => { p with miso := some 0 }

/-- TRANSACTION_OPEN (R178). -/
def execTransactionOpen (s : State) : Host.Outcome State Fault Refusal :=
  .next (s.mapPort Port.openTransaction)

/-- TRANSACTION_CLOSE (R178, R181). -/
def execTransactionClose (s : State) : Host.Outcome State Fault Refusal :=
  .next (s.mapPort Port.closeTransaction)

/-- PORT_CHARACTER (R178, R179): nothing is received while the transaction is CLOSED. -/
def execPortCharacter (mosi : Byte) (s : State) : Host.Outcome State Fault Refusal :=
  match s.port.transaction with
  | .closed => .next s
  | .command =>
    .next { s with port := s.port.commandCharacter (Config.fillerCount s.freeCount) mosi,
                   freeCount := s.freeCount + 1 }
  | .response => .next (s.mapPort Port.responseCharacter)

/-! ## Taking a command (R180, R182) -/

/-- What a command does: the state after its effect, its status and its data. -/
structure Effect where
  after : State
  status : Status
  data : List Byte

/-- A command refused, or answered without data. -/
def State.answers (s : State) (status : Status) : Effect := ⟨s, status, []⟩

/-- The characters of an answer: start, status, length and data (R179). -/
def answerBytes (status : Status) (data : List Byte) : List Byte :=
  0x5A :: status.code :: byteOf data.length :: data

/-- The port when the answer to the complete command is formed (R180): the answer is ready for the
transaction that shows it, and the held command becomes the complete one. -/
def Port.answered (bytes : List Byte) (p : Port) : Port :=
  { p with
    complete := p.held, held := none,
    reply := match p.reply with
      | .awaitsComplete => .ready bytes
      | .awaitsHeld => .awaitsComplete
      | r => r }

/-- A command that another one stands before: held, or discarded without effect (R180). -/
def Port.hold (i : Instr) (p : Port) : Port :=
  match p.held with
  | none => { p with held := some i }
  | some _ => p

/-- The port after a command has been taken with this answer (R180, R182): the answer is kept in the
last-response buffer, but for that of REPEAT-RESPONSE, and is ready for the transaction of a command
that stood complete. -/
def Port.taken (keep : Option Byte) (status : Status) (data : List Byte) (p : Port) : Port :=
  let kept : Port := match keep with
    | some c => { p with last := some { command := c, status := status, data := data } }
    | none => p
  match p.complete with
  | some _ => kept.answered (answerBytes status data)
  | none => kept

/-- A command taken by the port as one event (R180): its effect is carried out and its answer formed.
A command row that comes without its characters stands for a whole transaction, and while another
command stands complete it is held or discarded (log entry 1). -/
def takeCommand (i : Instr) (keep : Option Byte) (effect : State → Effect) (s : State) :
    Host.Outcome State Fault Refusal :=
  if s.port.complete = none ∨ s.port.complete = some i then
    let e := effect s
    .next (e.after.mapPort (Port.taken keep e.status e.data))
  else .next (s.mapPort (Port.hold i))

/-! ## Configuration (R187, R188) -/

/-- The five values of CONFIGURE are in range (R186, R187). -/
def configureInRange (d : BitVec 16) (f : Byte) (timebase : BitVec 16) (p k : Byte) : Bool :=
  decide (16 ≤ d.toNat ∧ d.toNat ≤ 4095) && decide (f.toNat ≤ 7)
    && decide (1000 ≤ timebase.toNat ∧ timebase.toNat ≤ 32000) && decide (1 ≤ p.toNat)
    && decide (3 ≤ k.toNat ∧ k.toNat ≤ 15)

/-- The restart of the line interface (R63): a break report is made if a frame was in progress. -/
def LineIf.restart (l : LineIf) : LineIf :=
  { LineIf.reset with stream := if l.framePos = 0 then [] else [.lineBreak] }

/-- The effect of CONFIGURE in OFFLINE with its values in range (R187). A restart leaves the inbox as it
is, also where it holds a PROVISIONAL frame whose window result is lost with the stream (R83; log entry
29). -/
def State.configured (d : BitVec 16) (f : Byte) (timebase : BitVec 16) (p k : Byte) (s : State) :
    State :=
  let old := s.port.store
  let s := s.mapPort fun x =>
    { x with store := { old with d := d.toNat, f := f.toNat, timebase := timebase.toNat,
                                 p := p.toNat, k := k.toNat } }
  let s := if old.d = d.toNat ∧ old.f = f.toNat then s
    else (s.mapLine LineIf.restart).mapCtrl fun c => { c with lineFault := false }
  if old.timebase = timebase.toNat then s else { s with timebase := 0 }

/-- CONFIGURE's effect (R187). -/
def configureEffect (d : BitVec 16) (f : Byte) (timebase : BitVec 16) (p k : Byte) (s : State) :
    Effect :=
  if s.ctrl.station ≠ .offline then s.answers .wrongState
  else if !configureInRange d f timebase p k then s.answers .badArgument
  else (s.configured d f timebase p k).answers .ok

/-- DEFINE-RESOURCE's effect (R188). -/
def defineEffect (resource limit : Byte) (s : State) : Effect :=
  if s.ctrl.station ≠ .offline then s.answers .wrongState
  else match resourceOf resource with
    | some r =>
      if limit.toNat ≤ 16 then
        (s.mapPort fun x =>
          { x with store := { x.store with limits := x.store.limits.set r limit.toNat } }).answers .ok
      else s.answers .badArgument
    | none => s.answers .badArgument

/-! ## Joining and leaving (R190, R191) -/

/-- JOIN's effect (R190). -/
def joinEffect (s : State) : Effect :=
  if s.ctrl.station = .offline then s.enterListening.answers .ok else s.answers .wrongState

/-- A record at the change to LEAVING (R168): a QUEUED claim not yet withdrawn is withdrawn. -/
def State.withdrawOnLeaving (s : State) (k : RecordIndex) : State :=
  if s.records[k].state = .queued ∧ s.records[k].cancelOwed = none then
    s.withdrawQueued .withdrawn k
  else s

/-- MEMBER goes to LEAVING (R141, R168). -/
def State.startLeaving (s : State) : State :=
  let s := s.mapCtrl fun c => { c with leaveMark := true, owed := { c.owed with leave := true } }
  allRecords.foldl State.withdrawOnLeaving (s.enter .leaving)

/-- LEAVE's effect by the station state (R141, R143). -/
def leaveEffect (s : State) : Effect :=
  match s.ctrl.station with
  | .member => s.startLeaving.answers .ok
  | .catchup =>
    if s.ctrl.leaveMark then s.answers .already
    else (s.mapCtrl fun c => { c with leaveMark := true }).catchupFailure.answers .ok
  | .leaving => s.answers .already
  | .listening | .founding | .asking | .holdoff => s.clearGroup.enterOffline.answers .ok
  | .offline => s.answers .wrongState

/-! ## Claims (R153, R154, R161, R166, R167) -/

/-- A live record of the slot names the resource (R153, check 3). -/
def State.duplicate (slot : Slot) (resource : Resource) (s : State) : Bool :=
  s.records.toList.any fun r =>
    r.state.live && decide (r.slot = slot) && decide (r.resource = resource)

/-- The record a CLAIM takes (R154): the lowest-numbered FREE one with its frame mark at NONE. -/
def State.freeRecord (s : State) : Option RecordIndex :=
  allRecords.find? fun k =>
    decide (s.records[k].state = .free) && decide (s.records[k].mark = .none)

/-- The record of a CLAIM that the transmitter has taken (R154). -/
def ClaimRecord.claimed (slot : Slot) (resource : Resource) (mode : Mode) (noWait : Bool)
    (waitLimit : BitVec 16) : ClaimRecord :=
  { state := .queued, slot := slot, resource := resource, mode := mode, noWait := noWait,
    waitLimit := waitLimit, waitTimer := if waitLimit = 0 then none else some waitLimit.toNat,
    cancelOwed := none, dropReason := none, owedDrop := false, outcome := none, mark := .claim }

/-- The status of a host frame that the transmitter does not take (R66, R154, R161). -/
def HostAnswer.status : HostAnswer → Status
  | .taken => .ok
  | .wrongState => .wrongState
  | .recordBusy | .full => .queueFull

/-- CLAIM's effect (R153, R154). A report that still waits for an earlier frame of the record is taken
before the record is taken again (R198; log entry 32). -/
def claimEffect (slot resource flags : Byte) (waitLimit : BitVec 16) (s : State) : Effect :=
  if s.ctrl.station ≠ .member then s.answers .wrongState
  else match slotOf slot, resourceOf resource with
    | some sl, some r =>
      if s.duplicate sl r then s.answers .duplicate
      else match s.freeRecord with
        | none => s.answers .noRecord
        | some k =>
          match s.hostAnswer .claim k with
          | .taken =>
            let m := modeOfFlags flags
            let nw := noWaitOfFlags flags
            let body := [byteOf r.val, byteOf k.val, claimFlags m nw]
            ⟨((s.takeReportsOn k).enqueue (.fresh .claim (.claimUnit k) body)).changeRecord k
                fun _ => .claimed sl r m nw waitLimit, .ok, [byteOf k.val]⟩
          | a => s.answers a.status
    | _, _ => s.answers .badArgument

/-- A host DROP of a WAITING or GRANTED record with this drop reason (R161): offered to the transmitter
when no frame of the record is queued, and owed otherwise. -/
def State.hostDrop (reason : DropReason) (k : RecordIndex) (s : State) : Effect :=
  match s.records[k].mark with
  | .none =>
    match s.hostAnswer .drop k with
    | .taken =>
      let body := [byteOf s.records[k].resource.val, byteOf k.val]
      ((s.enqueue (.fresh .drop (.claimUnit k) body)).changeRecord k
        fun r => { r.dropping reason with mark := .drop }).answers .ok
    | a => s.answers a.status
  | .claim | .drop => (s.dropRecord reason k).answers .ok

/-- DROP's effect (R161, R162). -/
def dropEffect (record : Byte) (s : State) : Effect :=
  if s.ctrl.station ≠ .member ∧ s.ctrl.station ≠ .leaving then s.answers .wrongState
  else match recordOf record with
    | none => s.answers .badArgument
    | some k =>
      match s.records[k].state with
      | .queued =>
        if s.records[k].cancelOwed.isSome then s.answers .already
        else (s.withdrawQueued .withdrawn k).answers .ok
      | .waiting => s.hostDrop .withdrawn k
      | .granted => s.hostDrop .released k
      | .dropping => s.answers .already
      | .done | .free => s.answers .notActive

/-- A record retired by the host (R151): every field is cleared except the frame mark. -/
def State.retireRecord (k : RecordIndex) (s : State) : State :=
  s.mapRecord k fun r => .freed r.mark

/-- READ-CLAIM's effect (R166, R196). -/
def readClaimEffect (record option : Byte) (s : State) : Effect :=
  match recordOf record with
  | none => s.answers .badArgument
  | some k =>
    let retired := option.getLsbD 0 && decide (s.records[k].state = .done)
    ⟨if retired then s.retireRecord k else s, .ok, claimData k s.records[k] retired⟩

/-- RETIRE's effect (R167). -/
def retireEffect (record : Byte) (s : State) : Effect :=
  match recordOf record with
  | none => s.answers .badArgument
  | some k =>
    match s.records[k].state with
    | .done => (s.retireRecord k).answers .ok
    | .free => s.answers .already
    | .queued | .waiting | .granted | .dropping => s.answers .wrongState

/-! ## Notices (R173, R174) -/

/-- The saturation mark of the head notice cleared (R173). -/
def NoticeQueue.readHead (q : NoticeQueue) : NoticeQueue :=
  { q with list := match q.list with
      | n :: rest => { n with saturated := false } :: rest
      | [] => [] }

/-- READ-NOTICE's effect (R173). -/
def readNoticeEffect (s : State) : Effect :=
  match s.notices.list with
  | [] => s.answers .empty
  | n :: _ =>
    ⟨s.mapNotices NoticeQueue.readHead, .ok, [n.subject.code, byteOf n.count, n.detail]⟩

/-- ACK-NOTICE's effect (R174). -/
def ackNoticeEffect (subject count : Byte) (s : State) : Effect :=
  match subjectOf subject with
  | none => s.answers .badArgument
  | some x =>
    match s.notices.list with
    | [] => s.answers .empty
    | n :: _ =>
      if n.subject ≠ x then s.answers .notHead
      else if n.count ≠ count.toNat then s.answers .stale
      else if n.count = 255 ∧ n.saturated = true then s.answers .stale
      else (s.mapNotices NoticeQueue.removeHead).answers .ok

/-! ## Reading the station (R192 to R194) -/

/-- READ-STATUS's data (R192). In ABSENT and PENDING the replica's fields hold what R32 asks for. -/
def State.statusData (s : State) : List Byte :=
  [ byteOf s.own.val ||| bitFlag 7 s.port.auto,
    s.ctrl.station.code, s.table.tag, lowByte s.table.tseq, highByte s.table.tseq,
    byteOf s.table.roster.length, byteOf s.table.entriesUsed, byteOf s.rx.ownVetoes,
    (s.ctrl.lastDetach.map DetachReason.code).getD 0, s.line.state.code ]

/-- READ-STATUS's effect (R192). -/
def readStatusEffect (s : State) : Effect := ⟨s, .ok, s.statusData⟩

/-- READ-ROSTER's effect (R193). -/
def readRosterEffect (s : State) : Effect :=
  if s.table.condition = .present then
    ⟨s, .ok, byteOf s.table.roster.length :: s.table.roster.map fun x => byteOf x.val⟩
  else s.answers .wrongState

/-- READ-RESOURCE's effect (R194). -/
def readResourceEffect (resource first : Byte) (s : State) : Effect :=
  if s.table.condition ≠ .present then s.answers .wrongState
  else match resourceOf resource with
    | none => s.answers .badArgument
    | some r =>
      let q := s.table.queues[r]
      ⟨s, .ok, [byteOf s.table.limits[r], byteOf q.length, first, lowByte s.table.tseq,
          highByte s.table.tseq] ++ ((q.drop first.toNat).take 80).flatMap entryData⟩

/-- REPEAT-RESPONSE's effect (R182). -/
def repeatEffect (s : State) : Effect :=
  match s.port.last with
  | some a => ⟨s, a.status, a.command :: a.data⟩
  | none => s.answers .empty

/-- An unknown command's effect (R183): it changes nothing. -/
def unknownEffect (s : State) : Effect := s.answers .unknownCommand

/-! ## The meanings of the commands -/

/-- CONFIGURE (R187). -/
def execConfigure (d : BitVec 16) (f : Byte) (timebase : BitVec 16) (p k : Byte) (s : State) :
    Host.Outcome State Fault Refusal :=
  takeCommand (.configure d f timebase p k) (some 0x10) (configureEffect d f timebase p k) s

/-- DEFINE-RESOURCE (R188). -/
def execDefineResource (resource limit : Byte) (s : State) : Host.Outcome State Fault Refusal :=
  takeCommand (.defineResource resource limit) (some 0x11) (defineEffect resource limit) s

/-- JOIN (R190). -/
def execJoin (s : State) : Host.Outcome State Fault Refusal :=
  takeCommand .join (some 0x12) joinEffect s

/-- LEAVE (R141, R191). -/
def execLeave (s : State) : Host.Outcome State Fault Refusal :=
  takeCommand .leave (some 0x13) leaveEffect s

/-- CLAIM (R153, R154). -/
def execClaim (slot resource flags : Byte) (waitLimit : BitVec 16) (s : State) :
    Host.Outcome State Fault Refusal :=
  takeCommand (.claim slot resource flags waitLimit) (some 0x20)
    (claimEffect slot resource flags waitLimit) s

/-- DROP (R161, R162). -/
def execDrop (record : Byte) (s : State) : Host.Outcome State Fault Refusal :=
  takeCommand (.drop record) (some 0x21) (dropEffect record) s

/-- READ-CLAIM (R166). -/
def execReadClaim (record option : Byte) (s : State) : Host.Outcome State Fault Refusal :=
  takeCommand (.readClaim record option) (some 0x22) (readClaimEffect record option) s

/-- RETIRE (R167). -/
def execRetire (record : Byte) (s : State) : Host.Outcome State Fault Refusal :=
  takeCommand (.retire record) (some 0x23) (retireEffect record) s

/-- READ-NOTICE (R173). -/
def execReadNotice (s : State) : Host.Outcome State Fault Refusal :=
  takeCommand .readNotice (some 0x30) readNoticeEffect s

/-- ACK-NOTICE (R174). -/
def execAckNotice (subject count : Byte) (s : State) : Host.Outcome State Fault Refusal :=
  takeCommand (.ackNotice subject count) (some 0x31) (ackNoticeEffect subject count) s

/-- READ-STATUS (R192). -/
def execReadStatus (s : State) : Host.Outcome State Fault Refusal :=
  takeCommand .readStatus (some 0x40) readStatusEffect s

/-- READ-ROSTER (R193). -/
def execReadRoster (s : State) : Host.Outcome State Fault Refusal :=
  takeCommand .readRoster (some 0x41) readRosterEffect s

/-- READ-RESOURCE (R194). -/
def execReadResource (resource first : Byte) (s : State) : Host.Outcome State Fault Refusal :=
  takeCommand (.readResource resource first) (some 0x42) (readResourceEffect resource first) s

/-- REPEAT-RESPONSE (R182). -/
def execRepeatResponse (s : State) : Host.Outcome State Fault Refusal :=
  takeCommand .repeatResponse none repeatEffect s

/-- An unknown command (R183). -/
def execUnknownCommand (character : Byte) (s : State) : Host.Outcome State Fault Refusal :=
  takeCommand (.unknownCommand character) (some character) unknownEffect s

end Sys2Proof.Machine
end

