-- ==== Sys2Proof/Machine/Schedule.lean ====
section
/-! DEFINITION. Which of the part's own events are due. The events of the line interface at the end of
a bit, the answer to a window opening and the tick come before the next reference period; every other
event may wait (log entry 11). -/

namespace Sys2Proof.Machine

/-- The command stands complete and not yet taken in the port (R180). -/
def State.commandDue (i : Instr) (s : State) : Bool := decide (s.port.complete = some i)

/-- The event is due: its rule's condition holds. What the host and the pins do is never due. -/
def State.due (s : State) (i : Instr) : Bool :=
  match i with
  | .deviceReset _ _ _ | .transactionOpen | .transactionClose | .portCharacter _ => false
  | .configure _ _ _ _ _ | .defineResource _ _ | .join | .leave | .claim _ _ _ _ | .drop _
  | .readClaim _ _ | .retire _ | .readNotice | .ackNotice _ _ | .readStatus | .readRoster
  | .readResource _ _ | .repeatResponse | .unknownCommand _ => s.commandDue i
  | .timebaseTick => s.tickDue
  | .startEdge => s.startEdgeDue
  | .attemptStart => s.attemptStartDue
  | .characterComplete => s.charDue
  | .gapExpiry => s.gapDue
  | .lineIdle => s.idleDue
  | .arbitrationLoss => s.lossDue
  | .readbackMismatch => s.mismatchDue
  | .vetoDriveEnd => s.vetoDriveEndDue
  | .breakDriveEnd => s.breakDriveEndDue
  | .windowClose => s.windowCloseDue
  | .breakTaken => s.breakDue
  | .breakEnd => s.breakEndDue
  | .lineFault => s.lineFaultDue
  | .lineRecovery => s.lineRecoveryDue
  | .takeCharacter => s.charAtHead
  | .takeTruncation => decide (s.line.stream.head? = some .truncation)
  | .takeBreak => decide (s.line.stream.head? = some .lineBreak)
  | .windowOpening => s.openingDue
  | .windowResult => s.resultAtHead
  | .handoff => s.handoffFrame.isSome
  | .application => s.rx.handoff.isSome
  | .acceptedReport path => s.acceptedDue path
  | .withdrawnReport path => s.withdrawnDue path
  | .replayStep => s.replayDue
  | .listenTimerExpiry => s.ctrl.listen.due && decide (s.ctrl.station = .listening)
  | .askTimerExpiry => s.ctrl.ask.due && decide (s.ctrl.station = .asking)
  | .stallTimerExpiry => s.ctrl.stall.due && decide (s.ctrl.station = .catchup)
  | .presenceTimerExpiry => s.ctrl.presence.due && s.ctrl.station.inGroup
  | .silenceTimerExpiry x => s.silenceDue x
  | .holdoffTimerExpiry => s.ctrl.holdoff.due && decide (s.ctrl.station = .holdoff)
  | .waitTimerExpiry k => s.waitDue k

/-- The events that are taken before the next reference period. -/
def promptEvents : List Instr :=
  [.arbitrationLoss, .readbackMismatch, .breakTaken, .startEdge, .characterComplete, .gapExpiry,
    .lineIdle, .vetoDriveEnd, .breakDriveEnd, .windowClose, .breakEnd, .lineFault, .lineRecovery,
    .windowOpening, .attemptStart, .timebaseTick]

/-- The events that may wait, besides the taking of a complete command. -/
def patientEvents : List Instr :=
  [.takeCharacter, .takeTruncation, .takeBreak, .windowResult, .handoff, .application,
    .acceptedReport .claimUnit, .acceptedReport .controller, .withdrawnReport .claimUnit,
    .withdrawnReport .controller, .replayStep, .listenTimerExpiry, .askTimerExpiry,
    .stallTimerExpiry, .presenceTimerExpiry, .holdoffTimerExpiry]
    ++ (List.finRange 32).map .silenceTimerExpiry ++ allRecords.map .waitTimerExpiry

/-- The events of the part that are due before the next reference period. -/
def State.promptDue (s : State) : List Instr := promptEvents.filter s.due

/-- The events of the part that are due and may wait, the taking of the complete command first. -/
def State.patientDue (s : State) : List Instr :=
  (s.port.complete.toList ++ patientEvents).filter s.due

/-- What the block does next when no command waits: an event, or a reference period. -/
inductive Move where
  | event (i : Instr)
  | period
deriving DecidableEq, Repr

/-- The moves open to the block (log entry 11): the prompt events that are due, or else the patient
ones and a reference period. -/
def State.moves (s : State) : List Move :=
  match s.promptDue with
  | [] => s.patientDue.map .event ++ [.period]
  | is => is.map .event

/-- The state when a free value has been drawn. -/
def State.drawn (s : State) : State := { s with freeCount := s.freeCount + 1 }

/-- The move that is taken and the state it is taken in: the only one, or the one that a free value
picks (log entry 2). -/
def State.nextMove (s : State) : Move × State :=
  match s.moves with
  | [] => (.period, s)
  | [m] => (m, s)
  | m :: n :: rest =>
    let ms := m :: n :: rest
    ((ms[Config.schedule s.freeCount % ms.length]?).getD m, s.drawn)

end Sys2Proof.Machine
end

