-- ==== Sys2Proof/Machine/Dispatch.lean ====
section
/-! DEFINITION. The dispatch of every command to its meaning. -/

namespace Sys2Proof.Machine

/-- The effect of one command on everything but the queue of commands that wait. -/
def exec (i : Instr) (s : State) : Host.Outcome State Fault Refusal :=
  match i with
  | .deviceReset straps auto csLow => Sys2Proof.Machine.execDeviceReset straps auto csLow s
  | .transactionOpen => Sys2Proof.Machine.execTransactionOpen s
  | .transactionClose => Sys2Proof.Machine.execTransactionClose s
  | .portCharacter mosi => Sys2Proof.Machine.execPortCharacter mosi s
  | .configure d f timebase p k => Sys2Proof.Machine.execConfigure d f timebase p k s
  | .defineResource resource limit => Sys2Proof.Machine.execDefineResource resource limit s
  | .join => Sys2Proof.Machine.execJoin s
  | .leave => Sys2Proof.Machine.execLeave s
  | .claim slot resource flags waitLimit => Sys2Proof.Machine.execClaim slot resource flags waitLimit s
  | .drop record => Sys2Proof.Machine.execDrop record s
  | .readClaim record option => Sys2Proof.Machine.execReadClaim record option s
  | .retire record => Sys2Proof.Machine.execRetire record s
  | .readNotice => Sys2Proof.Machine.execReadNotice s
  | .ackNotice subject count => Sys2Proof.Machine.execAckNotice subject count s
  | .readStatus => Sys2Proof.Machine.execReadStatus s
  | .readRoster => Sys2Proof.Machine.execReadRoster s
  | .readResource resource first => Sys2Proof.Machine.execReadResource resource first s
  | .repeatResponse => Sys2Proof.Machine.execRepeatResponse s
  | .unknownCommand character => Sys2Proof.Machine.execUnknownCommand character s
  | .timebaseTick => Sys2Proof.Machine.execTimebaseTick s
  | .startEdge => Sys2Proof.Machine.execStartEdge s
  | .attemptStart => Sys2Proof.Machine.execAttemptStart s
  | .characterComplete => Sys2Proof.Machine.execCharacterComplete s
  | .gapExpiry => Sys2Proof.Machine.execGapExpiry s
  | .lineIdle => Sys2Proof.Machine.execLineIdle s
  | .arbitrationLoss => Sys2Proof.Machine.execArbitrationLoss s
  | .readbackMismatch => Sys2Proof.Machine.execReadbackMismatch s
  | .vetoDriveEnd => Sys2Proof.Machine.execVetoDriveEnd s
  | .breakDriveEnd => Sys2Proof.Machine.execBreakDriveEnd s
  | .windowClose => Sys2Proof.Machine.execWindowClose s
  | .breakTaken => Sys2Proof.Machine.execBreakTaken s
  | .breakEnd => Sys2Proof.Machine.execBreakEnd s
  | .lineFault => Sys2Proof.Machine.execLineFault s
  | .lineRecovery => Sys2Proof.Machine.execLineRecovery s
  | .takeCharacter => Sys2Proof.Machine.execTakeCharacter s
  | .takeTruncation => Sys2Proof.Machine.execTakeTruncation s
  | .takeBreak => Sys2Proof.Machine.execTakeBreak s
  | .windowOpening => Sys2Proof.Machine.execWindowOpening s
  | .windowResult => Sys2Proof.Machine.execWindowResult s
  | .handoff => Sys2Proof.Machine.execHandoff s
  | .application => Sys2Proof.Machine.execApplication s
  | .acceptedReport path => Sys2Proof.Machine.execAcceptedReport path s
  | .withdrawnReport path => Sys2Proof.Machine.execWithdrawnReport path s
  | .replayStep => Sys2Proof.Machine.execReplayStep s
  | .listenTimerExpiry => Sys2Proof.Machine.execListenTimerExpiry s
  | .askTimerExpiry => Sys2Proof.Machine.execAskTimerExpiry s
  | .stallTimerExpiry => Sys2Proof.Machine.execStallTimerExpiry s
  | .presenceTimerExpiry => Sys2Proof.Machine.execPresenceTimerExpiry s
  | .silenceTimerExpiry station => Sys2Proof.Machine.execSilenceTimerExpiry station s
  | .holdoffTimerExpiry => Sys2Proof.Machine.execHoldoffTimerExpiry s
  | .waitTimerExpiry record => Sys2Proof.Machine.execWaitTimerExpiry record s

end Sys2Proof.Machine
end

