-- ==== Sys2Proof/Machine/Step.lean ====
section
/-! DEFINITION. One step of the block: the command at the front of the queue, or, on an empty queue, one
of the part's own events that is due or one reference period (log entry 11). -/

namespace Sys2Proof.Machine

/-- The state without the front of its queue. -/
def State.withPending (pending : List Instr) (s : State) : State := { s with pending := pending }

/-- A move of the block by itself. -/
def move (m : Move × State) : Host.Outcome State Fault Refusal :=
  match m.1 with
  | .event i => exec i m.2
  | .period => .next m.2.clock

/-- One step. -/
def step (s : State) : Host.Outcome State Fault Refusal :=
  match s.pending with
  | c :: rest => exec c (s.withPending rest)
  | [] => move s.nextMove

/-- The state with the command that a word spells at the front of its queue. -/
def State.withFetchWord (s : State) (nbits w : Nat) : State :=
  match decodeTableWord nbits w with
  | some i => s.withPending (i :: s.pending)
  | none => s

end Sys2Proof.Machine
end

