-- ==== Sys2Proof/Safety.lean ====
section
/-! DEFINITION. The laws that the manual states for the state of a station, which every step keeps.
Each is a decidable property of plain data. -/

namespace Sys2Proof.Machine

/-! ## Notice queue -/

/-- R170, R171, R176: ATTN# is asserted exactly while the list is not empty, each subject has at most
one notice, change counts are 1 to 255, and a saturation mark is set only at 255. -/
abbrev NoticeQueue.Law (q : NoticeQueue) : Prop :=
  q.attn = !q.list.isEmpty ∧ (q.list.map Notice.subject).Nodup
    ∧ ∀ n ∈ q.list, 1 ≤ n.count ∧ n.count ≤ 255 ∧ (n.saturated = true → n.count = 255)

/-! ## Transmitter -/

/-- R64, R77: the queue holds at most 8 frames, at most one of them ACTIVE, at most one EVICT, at most
one PRESENCE and at most one frame for any record; the attempt counter is below 16; and while the report
of a start waits no entry is ACTIVE (R70, R71). -/
abbrev Transmitter.Law (t : Transmitter) : Prop :=
  t.queue.length ≤ 8 ∧ t.queue.countP TxEntry.active ≤ 1
    ∧ (t.queue.countP fun e => decide (e.kind = .evict)) ≤ 1
    ∧ (t.queue.countP fun e => decide (e.kind = .presence)) ≤ 1
    ∧ (∀ k : RecordIndex, (t.queue.countP fun e => decide (e.owner = .claimUnit k)) ≤ 1)
    ∧ t.attempts ≤ 15 ∧ (t.startReport = true → t.queue.countP TxEntry.active = 0)

/-- R67: an owed frame that the gate of R68 and the guards of R69 admit waits only while the queue holds
8 frames. -/
abbrev State.OwedLaw (s : State) : Prop :=
  8 ≤ s.tx.queue.length ∨ ∀ o ∈ s.owedFrames, admits s.ctrl.station o.kind = true →
    guardMet s.tx.queue o.kind o.owner = false

/-! ## Line interface and receiver -/

/-- The characters in the stream: the FIFO holds 4 and one waits (R84). -/
def LineIf.charCount (l : LineIf) : Nat := (l.stream.filter StreamItem.isChar).length

/-- R84, R49, R61: at most 5 characters are held, the accumulator is 0 to 7, and the dominant run
counts to 1024. -/
abbrev LineIf.Law (l : LineIf) : Prop :=
  l.charCount ≤ 5 ∧ l.acc ≤ 7 ∧ l.dominantRun ≤ 1024

/-- R85, R91, R92: a frame in progress holds 1 to 32 characters, the inbox at most 2 frames, and the
own-veto counter is below 8. -/
abbrev Receiver.Law (r : Receiver) : Prop :=
  (∀ a ∈ r.assembly, 1 ≤ a.chars.length ∧ a.chars.length ≤ 32) ∧ r.inbox.length ≤ 2
    ∧ r.ownVetoes ≤ 7

/-! ## Configuration store -/

/-- R186: every item of the store is in its range. -/
abbrev ConfigStore.Law (c : ConfigStore) : Prop :=
  (16 ≤ c.d ∧ c.d ≤ 4095) ∧ c.f ≤ 7 ∧ (1000 ≤ c.timebase ∧ c.timebase ≤ 32000)
    ∧ (1 ≤ c.p ∧ c.p ≤ 255) ∧ (3 ≤ c.k ∧ c.k ≤ 15) ∧ ∀ r : Resource, c.limits[r] ≤ 16

/-! ## Replica -/

/-- The grant rule holds in a queue (R11, R12). -/
abbrev QueueGranted (limit : Nat) (q : List Entry) : Prop := regrant limit q = q

/-- The keys of all entries (R8). -/
def Replica.keys (t : Replica) : List (Station × RecordIndex) :=
  t.entryList.map fun x => (x.2.station, x.2.record)

/-- The laws of a PRESENT replica (R3, R4, R5, R8, R11). -/
abbrev Replica.PresentLaw (own : Station) (t : Replica) : Prop :=
  own ∈ t.roster ∧ t.roster.Nodup
    ∧ (1 ≤ t.p ∧ t.p ≤ 255) ∧ (3 ≤ t.k ∧ t.k ≤ 15) ∧ (∀ r : Resource, t.limits[r] ≤ 16)
    ∧ t.entriesUsed ≤ 128 ∧ t.keys.Nodup
    ∧ (∀ r : Resource, ∀ e ∈ t.queues[r], e.station ∈ t.roster)
    ∧ (∀ r : Resource, t.limits[r] = 0 → t.queues[r] = [])
    ∧ ∀ r : Resource, QueueGranted t.limits[r] t.queues[r]

/-- R1: what the replica holds in each condition. -/
abbrev Replica.Law (own : Station) (t : Replica) : Prop :=
  match t.condition with
  | .absent => t = .absent
  | .pending => t = { Replica.absent with condition := .pending, tag := t.tag, roster := [own],
                                          tseq := t.tseq }
  | .present => t.PresentLaw own

/-! ## The station as a whole -/

/-- R1, R5, R103: the condition of the replica agrees with the station state, and a frame stands in the
handoff slot only in MEMBER and LEAVING, sequenced and from a roster member. -/
abbrev State.StationLaw (s : State) : Prop :=
  (match s.ctrl.station with
    | .offline | .listening | .founding | .asking | .holdoff => s.table.condition = .absent
    | .catchup => s.table.condition ≠ .absent
    | .member | .leaving => s.table.condition = .present)
    ∧ ∀ f ∈ s.rx.handoff,
      (s.ctrl.station = .member ∨ s.ctrl.station = .leaving)
        ∧ ∃ kind sender, f.known = some (kind, sender) ∧ kind.sequenced = true
            ∧ sender ∈ s.table.roster

/-- R123, R128: the pending-apply queue holds at most 16 frames and only in CATCHUP; while the catch-up
has not failed its length is the catch-up count, and after a failure it is empty. The join-ask list
holds at most 4 distinct stations (R117), and the EVICT in hand has the phase that R137 gives. -/
abbrev Controller.Law (c : Controller) : Prop :=
  c.pendingApply.length ≤ 16
    ∧ (c.failed = false → c.catchupCount = BitVec.ofNat 16 c.pendingApply.length)
    ∧ (c.failed = true → c.pendingApply = [])
    ∧ (c.station ≠ .catchup → c.failed = false ∧ c.pendingApply = [])
    ∧ c.joinAsks.length ≤ 4 ∧ c.joinAsks.Nodup

/-- R134, R137: in CATCHUP, MEMBER and LEAVING a silence timer is kept for each roster member other than
the own station and for no other, in every other state for none; and the eviction list holds distinct
stations whose timers are EXPIRED. -/
abbrev State.SilenceLaw (s : State) : Prop :=
  (∀ x : Station, s.ctrl.silence[x].isSome = true ↔ x ∈ s.table.roster ∧ x ≠ s.own)
    ∧ s.ctrl.evictions.Nodup ∧ ∀ x ∈ s.ctrl.evictions, s.ctrl.silence[x] = some .expired

/-- R150, R156, R169: a claim is live only in MEMBER and LEAVING, a drop is owed only for a DROPPING
record, and a GRANTED record has a GRANTED entry of the own station and its record index in the queue of
its resource. -/
abbrev State.ClaimLaw (s : State) : Prop :=
  ∀ k : RecordIndex,
    (s.records[k].state.live = true → s.ctrl.station = .member ∨ s.ctrl.station = .leaving)
      ∧ (s.records[k].owedDrop = true → s.records[k].state = .dropping)
      ∧ (s.records[k].state = .granted →
          ∃ e ∈ s.table.queues[s.records[k].resource],
            e.station = s.own ∧ e.record = k ∧ e.granted = true)

/-- Every bound on a buffer, a counter and a register of one block. -/
abbrev State.BoundsLaw (s : State) : Prop :=
  s.line.Law ∧ s.rx.Law ∧ s.port.store.Law ∧ s.ctrl.Law

/-- The laws on the replica, the station state and the claim records, which hold together. -/
abbrev State.GroupLaw (s : State) : Prop :=
  s.port.store.Law ∧ s.ctrl.Law ∧ s.table.Law s.own ∧ s.StationLaw ∧ s.ClaimLaw

/-! ## Notions that the statements use -/

end Sys2Proof.Machine

namespace Sys2Proof

/-- The command is one of the local port (R195). -/
def Instr.hostCommand : Instr → Bool
  | .configure _ _ _ _ _ | .defineResource _ _ | .join | .leave | .claim _ _ _ _ | .drop _
  | .readClaim _ _ | .retire _ | .readNotice | .ackNotice _ _ | .readStatus | .readRoster
  | .readResource _ _ | .repeatResponse | .unknownCommand _ => true
  | _ => false

/-- The command character that the last-response buffer keeps (R182, R195): none for REPEAT-RESPONSE,
which keeps no answer, and for what is no command of the port. -/
def Instr.keptCharacter : Instr → Option Byte
  | .configure _ _ _ _ _ => some 0x10
  | .defineResource _ _ => some 0x11
  | .join => some 0x12
  | .leave => some 0x13
  | .claim _ _ _ _ => some 0x20
  | .drop _ => some 0x21
  | .readClaim _ _ => some 0x22
  | .retire _ => some 0x23
  | .readNotice => some 0x30
  | .ackNotice _ _ => some 0x31
  | .readStatus => some 0x40
  | .readRoster => some 0x41
  | .readResource _ _ => some 0x42
  | .unknownCommand c => some c
  | _ => none

end Sys2Proof

namespace Sys2Proof.Machine

/-- The port takes the command now (R180): no other command stands complete. -/
abbrev State.Takes (i : Instr) (s : State) : Prop :=
  s.port.complete = none ∨ s.port.complete = some i

/-- The state with the command of character `c` answered, and nothing else changed (R180, R182). -/
def State.answered (c : Byte) (status : Status) (data : List Byte) (s : State) : State :=
  { s with port := s.port.taken (some c) status data }

/-- The attempt on the line is that of one entry of the queue (R64, R71). -/
abbrev State.Attempt (before : List TxEntry) (e : TxEntry) (after : List TxEntry) (s : State) : Prop :=
  s.tx.queue = before ++ e :: after ∧ e.state = .active ∧ ∀ x ∈ before ++ after, x.state = .ready

/-- The notice queue with a post to the slot of each of the records, in their order (R152). -/
abbrev State.postsFor (s : State) (ks : List RecordIndex) : NoticeQueue :=
  ks.foldl (fun q k => q.post (.slot s.records[k].slot) (byteOf k.val)) s.notices

/-- The line interface after a flush (R80): an attempt in CONTEND or SENDING is withdrawn with a break
that is driven from the next bit on, and nothing changes in any other state. -/
abbrev State.lineFlushed (s : State) : LineIf :=
  if s.line.state = .contend ∨ s.line.state = .sending then
    { s.line with
      state := .breaking, shift := none, edge := false, framePos := 0, frameLen := none,
      recessiveCount := 0, stream := s.line.stream ++ [.lineBreak], breakDrive := some 0,
      breakWait := if s.line.bitPos = 0 then none else some s.ownDrive }
  else s.line

/-- What a detach leaves (R145, R146, R169), from the state `s` before it: the notices that stood, a
post for each live record, in ascending index, and then the DETACHED post. -/
abbrev Detached (reason : DetachReason) (s t : State) : Prop :=
  t.table = .absent ∧ t.tx = .empty ∧ t.rx = { s.rx with inbox := [], handoff := none, ownVetoes := 0 }
    ∧ t.ctrl = { Controller.reset with
        station := if reason = .left ∨ s.ctrl.leaveMark = true then .offline else .holdoff,
        workingE := s.ownE, founding := s.ctrl.founding, lineFault := s.ctrl.lineFault,
        holdoff := if reason = .left ∨ s.ctrl.leaveMark = true then .stopped
          else .running ((2 + s.port.station.val % 8) * (s.port.store.p * 10)),
        lastDetach := some reason }
    ∧ (∀ k : RecordIndex, s.records[k].state.live = true →
        t.records[k].state = .done ∧ t.records[k].outcome = some .lost ∧ t.records[k].mark = .none
          ∧ t.records[k].waitTimer = none)
    ∧ (∀ k : RecordIndex, s.records[k].state.live = false →
        t.records[k].state = s.records[k].state ∧ t.records[k].slot = s.records[k].slot
          ∧ t.records[k].resource = s.records[k].resource
          ∧ t.records[k].outcome = s.records[k].outcome ∧ t.records[k].mark = .none)
    ∧ t.notices = (s.postsFor (allRecords.filter fun k => s.records[k].state.live)).post .detached
        reason.code
    ∧ t.port = s.port ∧ t.timebase = s.timebase ∧ t.pending = s.pending ∧ t.lineIn = s.lineIn

/-- What the withdrawal of the listed station `x` from eviction leaves (R138, R139), from the state `s`
before it: `x` is out of the list, and the EVICT in hand is what the place of `x` makes it. An entry of
`x` that was READY is gone, and an EVICT that has joined the queue since is the next one. -/
abbrev EvictionWithdrawn (x : Station) (s t : State) : Prop :=
  let others := s.ctrl.evictions.filter fun y => decide (y ≠ x)
  let hand := t.ctrl.evictInHand.map EvictInHand.target
  t.ctrl.evictions = others
    ∧ (s.ctrl.evictInHand = none → hand = none)
    ∧ (∀ y phase, s.ctrl.evictInHand = some ⟨y, phase⟩ → y ≠ x → hand = some y)
    ∧ (s.ctrl.evictInHand = some ⟨x, .owed⟩ → hand = others.head?)
    ∧ (s.ctrl.evictInHand = some ⟨x, .queued⟩ →
      ((∀ e ∈ s.tx.queue, e.kind = .evict → e.owner ≠ .controller) → hand = some x)
      ∧ ∀ before e after, s.tx.queue = before ++ e :: after → e.kind = .evict →
        e.owner = .controller → (∀ y ∈ before, y.kind ≠ .evict) →
        (e.state = .ready → hand = others.head?
          ∧ ∀ y ∈ t.tx.queue, y.kind = .evict → y.owner = .controller → y ∈ after
            ∨ ∃ z, others.head? = some z ∧ y = .fresh .evict .controller [byteOf z.val])
        ∧ (e.state = .active → hand = some x ∧ { e with cancel := true } ∈ t.tx.queue))

/-- What a silence report of the station `x` leaves in the controller (R97, R134, R135) where `x` is not
on the eviction list: its timer, if one is kept, restarts at E, frozen while the line-fault flag is set,
and nothing else changes. -/
abbrev State.heardFrom (x : Station) (s : State) : Controller :=
  { s.ctrl with
    silence :=
      if s.ctrl.silence[x] = none then s.ctrl.silence
      else s.ctrl.silence.set x
        (some (if s.ctrl.lineFault then .frozen (s.table.k * (s.table.p * 10))
          else .running (s.table.k * (s.table.p * 10)))) }

/-- The station is in a state from which it can detach (R144). -/
abbrev State.CanDetach (s : State) : Prop :=
  s.ctrl.station = .founding ∨ s.ctrl.station = .asking ∨ s.ctrl.station = .catchup
    ∨ s.ctrl.station = .member ∨ s.ctrl.station = .leaving

end Sys2Proof.Machine
end

