-- ==== Sys2Proof/Certificates/Slice0/Obligations.lean ====
section
/-! DEFINITION. The statements for the provers. Each says what its name says; its words and the rules it
rests on are in OBLIGATIONS.json. -/

section

open Sys2Proof Sys2Proof.Machine

/-- For every command c, queue and state with c at the front: step is exec of c on the state with
the rest of the queue (the form of this model of a block: commands wait in a queue, and each is
carried out whole). (opcode_table.json, 95_what_each_step_holds.md) -/
def Obligations.StepRunsTheFrontCommand : Prop :=
  ∀ (c : Instr) (rest : List Instr) (s : State), s.pending = c :: rest →
    step s = exec c { s with pending := rest }

/-- For every command and every state, exec answers a next state in which the waiting commands and
what the outside does to LINE are unchanged: section 0.3.2 gives the part no error register, and no
fault stops it. That an event that is not due, and a command sent whole, answer a state too is the
model's choice (log entry 1), and the field lineIn for the outside of LINE is the model's own (log
entry 3). (00_scope.md section 0.3.2, section 0.8) -/
def Obligations.EveryCommandAnswersAState : Prop :=
  ∀ (c : Instr) (s : State), ∃ t, exec c s = .next t ∧ t.pending = s.pending ∧ t.lineIn = s.lineIn

/-- On an empty queue: a reference period passes when it is the only move; the one event that is due
is taken when it is the only move; and otherwise the step takes one of the open moves, whichever
value the free value has (log entry 2). Every event among the moves is due; every prompt event that
is due is among them; a reference period is among them exactly when no prompt event is due; and
every event that is due is among them then. Which events are prompt, and the order prompt before
patient, is the model's choice (log entry 11). The line's events are due as R51 to R62 have them, a
truncation, break, character or window result when it is the head of the stream and a window opening
when one stands in it, HANDOFF for an ACCEPTED inbox head and an empty slot, APPLICATION for a frame
in the slot, a replay step in CATCHUP after install with a frame queued and no failure, an expiry
when its timer has run out, the tick when the timebase has counted its divisor, and a host command
when it stands complete; what the pins do is never due. A start that was reported on becoming idle
stays due (log entry 5), a loss or mismatch comes before a break and a break before the character
that the same bit ends (log entry 42), a start bit is judged at its end (log entry 43), a break ends
after the own drive of it (log entry 16), a window holds a line fault off no longer than BREAK does
(log entry 17), and no attempt starts while the start bit of a foreign edge is being sampled: an
offer waits for its judgement (log entry 34), and an owner's ACCEPTED or WITHDRAWN is due when it is
the oldest report for that owner (log entry 39). These seven are the model's and not the rules'.
(section 0.8, R51, R54, R55, R56, R57, R58, R60, R61, R62, R84, R94) -/
def Obligations.IdleStepTakesADueMove : Prop :=
  (
    ∀ s : State,
      let prompt : List Instr :=
        [.arbitrationLoss, .readbackMismatch, .breakTaken, .startEdge, .characterComplete,
          .gapExpiry, .lineIdle, .vetoDriveEnd, .breakDriveEnd, .windowClose, .breakEnd, .lineFault,
          .lineRecovery, .windowOpening, .attemptStart, .timebaseTick]
      (s.pending = [] →
        (s.moves = [.period] → step s = .next s.clock)
          ∧ (∀ i, s.moves = [.event i] → step s = exec i s)
          ∧ (∀ m n rest, s.moves = m :: n :: rest →
              ∃ chosen ∈ s.moves, step s = move (chosen, { s with freeCount := s.freeCount + 1 })))
        ∧ (∀ i, .event i ∈ s.moves → s.due i = true)
        ∧ (∀ i ∈ prompt, s.due i = true → .event i ∈ s.moves)
        ∧ (.period ∈ s.moves ↔ ∀ i ∈ prompt, s.due i = false)
        ∧ ((∀ i ∈ prompt, s.due i = false) → ∀ i, s.due i = true → .event i ∈ s.moves))
    ∧ (
    ∀ s : State,
      let loss := s.line.state = .contend ∧ ∃ h bits, s.line.shift = some h
        ∧ h.bits = bits ++ [.dominant] ∧ s.frameLevel bits.length = .recessive
      let mismatch := ∃ h bits read, s.line.shift = some h ∧ h.bits = bits ++ [read]
        ∧ (s.line.state = .sending ∧ s.frameLevel bits.length ≠ read
          ∨ s.line.state = .contend ∧ s.frameLevel bits.length = .dominant ∧ read = .recessive)
      let breaks := (s.line.state = .idle ∨ s.line.state = .settling ∨ s.line.state = .receiving
          ∨ s.line.state = .contend ∨ s.line.state = .sending)
        ∧ 12 ≤ s.line.dominantRun ∧ ¬ loss ∧ ¬ mismatch
      (s.due .arbitrationLoss = true ↔ loss) ∧ (s.due .readbackMismatch = true ↔ mismatch)
        ∧ (s.due .breakTaken = true ↔ breaks)
        ∧ (s.due .characterComplete = true ↔
            (s.line.state = .receiving ∨ s.line.state = .contend ∨ s.line.state = .sending)
              ∧ (∃ h, s.line.shift = some h ∧ 11 ≤ h.bits.length) ∧ ¬ loss ∧ ¬ mismatch ∧ ¬ breaks)
        ∧ (s.due .startEdge = true ↔
            s.line.edge = true ∧ s.line.shift = none ∧ (s.line.state = .idle
                ∨ s.line.state = .settling ∨ s.line.state = .receiving)
              ∨ ∃ level noise, s.line.shift = some ⟨[level], noise, false⟩)
        ∧ (s.due .attemptStart = true ↔ s.line.state = .idle ∧ s.line.shift = none
            ∧ (s.offered = true ∨ s.tx.startReport = true))
        ∧ (s.due .gapExpiry = true ↔ s.line.state = .receiving ∧ s.line.shift = none
            ∧ s.line.edge = false ∧ 4 ≤ s.line.recessiveCount)
        ∧ (s.due .lineIdle = true ↔ s.line.state = .settling ∧ s.line.shift = none
            ∧ s.line.edge = false ∧ s.line.settleLen ≤ s.line.recessiveCount)
        ∧ (s.due .vetoDriveEnd = true ↔ s.line.vetoDriving = true ∧ 16 ≤ s.line.windowTimer)
        ∧ (s.due .breakDriveEnd = true ↔ ∃ n, s.line.breakDrive = some n ∧ 16 ≤ n)
        ∧ (s.due .windowClose = true ↔ s.line.state = .window ∧ 22 ≤ s.line.windowTimer)
        ∧ (s.due .breakEnd = true ↔ s.line.state = .breaking ∧ s.line.breakDrive = none
            ∧ 1 ≤ s.line.recessiveCount)
        ∧ (s.due .lineFault = true ↔ (s.line.state = .breaking ∨ s.line.state = .window)
            ∧ 1024 ≤ s.line.dominantRun)
        ∧ (s.due .lineRecovery = true ↔ s.line.state = .fault ∧ 22 ≤ s.line.recessiveCount)
        ∧ (s.due .takeCharacter = true ↔ ∃ c rest, s.line.stream = .char c :: rest)
        ∧ (s.due .takeTruncation = true ↔ ∃ rest, s.line.stream = .truncation :: rest)
        ∧ (s.due .takeBreak = true ↔ ∃ rest, s.line.stream = .lineBreak :: rest)
        ∧ (s.due .windowResult = true ↔ ∃ clean rest, s.line.stream = .result clean :: rest)
        ∧ (s.due .windowOpening = true ↔ .opening ∈ s.line.stream)
        ∧ (s.due .handoff = true ↔
            s.rx.handoff = none ∧ ∃ f rest, s.rx.inbox = f :: rest ∧ f.accepted = true)
        ∧ (s.due .application = true ↔ s.rx.handoff ≠ none)
        ∧ (s.due .replayStep = true ↔ s.ctrl.station = .catchup ∧ s.table.condition = .present
            ∧ s.ctrl.failed = false ∧ s.ctrl.pendingApply ≠ [])
        ∧ (∀ path, s.due (.acceptedReport path) = true ↔ ∃ before kind owner after,
            s.tx.reports = before ++ .accepted kind owner :: after
              ∧ (TxReport.accepted kind owner).path = path ∧ ∀ x ∈ before, x.path ≠ path)
        ∧ (∀ path, s.due (.withdrawnReport path) = true ↔ ∃ before kind owner after,
            s.tx.reports = before ++ .withdrawn kind owner :: after
              ∧ (TxReport.withdrawn kind owner).path = path ∧ ∀ x ∈ before, x.path ≠ path)
        ∧ (s.due .listenTimerExpiry = true ↔
            s.ctrl.listen = .running 0 ∧ s.ctrl.station = .listening)
        ∧ (s.due .askTimerExpiry = true ↔ s.ctrl.ask = .running 0 ∧ s.ctrl.station = .asking)
        ∧ (s.due .stallTimerExpiry = true ↔ s.ctrl.stall = .running 0 ∧ s.ctrl.station = .catchup)
        ∧ (s.due .presenceTimerExpiry = true ↔
            s.ctrl.presence = .running 0 ∧ (s.ctrl.station = .catchup ∨ s.ctrl.station = .member
              ∨ s.ctrl.station = .leaving))
        ∧ (s.due .holdoffTimerExpiry = true ↔
            s.ctrl.holdoff = .running 0 ∧ s.ctrl.station = .holdoff)
        ∧ (∀ x, s.due (.silenceTimerExpiry x) = true ↔ s.ctrl.silence[x] = some (.running 0))
        ∧ (∀ k, s.due (.waitTimerExpiry k) = true ↔ s.records[k].waitTimer = some 0)
        ∧ (s.due .timebaseTick = true ↔ s.port.store.timebase ≤ s.timebase)
        ∧ (∀ i, i.hostCommand = true → (s.due i = true ↔ s.port.complete = some i))
        ∧ (∀ straps auto csLow, s.due (.deviceReset straps auto csLow) = false)
        ∧ s.due .transactionOpen = false ∧ s.due .transactionClose = false
        ∧ ∀ c, s.due (.portCharacter c) = false)

/-- State.reset holds the device-reset values that R26, R63, R65, R83, R104, R131, R151, R170, R178,
R182, R186 and R189 give (the strap values and the level of CS# are log entry 10 and are not stated
here). From any state DEVICE_RESET answers the state with every block at its device-reset value and
the straps sampled; with AUTO high the station is LISTENING with a listen period of 1000 ms. Where
the rules give no value, the fields are at the model's: the bit timing and edge detector by log
entry 4 (DEDUCED), the fields of a FREE record by log entry 9, and the state right after reset by
log entry 10 (DESIGN CHOICES); the note of R125 is false by log entry 40 (DESIGN CHOICE); the count
of reports for parts of ended donations is the model's own and 0 (log entry 37); the commands that
wait, the outside of the line and the count of free values are the model's own and stay (log entries
2 and 3). Right after reset, with straps 0, AUTO low and CS# high, it changes nothing. (R26, R63,
R65, R83, R104, R131, R151, R170, R178, R184, R185, R186) -/
def Obligations.ResetWhole : Prop :=
  (
    State.reset.line.state = .settling ∧ State.reset.line.settleLen = 11
      ∧ State.reset.line.recessiveCount = 0 ∧ State.reset.line.dominantRun = 0
      ∧ State.reset.line.acc = 0 ∧ State.reset.line.shift = none ∧ State.reset.line.stream = []
      ∧ State.reset.line.framePos = 0 ∧ State.reset.line.windowTimer = 0
      ∧ State.reset.line.vetoDriving = false ∧ State.reset.line.vetoSeen = false
      ∧ State.reset.tx.queue = [] ∧ State.reset.tx.attempts = 0 ∧ State.reset.tx.reports = []
      ∧ State.reset.rx.assembly = none ∧ State.reset.rx.inbox = [] ∧ State.reset.rx.handoff = none
      ∧ State.reset.rx.ownVetoes = 0
      ∧ State.reset.table.condition = .absent ∧ State.reset.table.tag = 0 ∧ State.reset.table.p = 10
      ∧ State.reset.table.k = 5 ∧ State.reset.table.roster = [] ∧ State.reset.table.tseq = 0
      ∧ (∀ r : Resource, State.reset.table.limits[r] = 1 ∧ State.reset.table.queues[r] = [])
      ∧ State.reset.ctrl.station = .offline ∧ State.reset.ctrl.workingE = 500
      ∧ State.reset.ctrl.learnedE = none ∧ State.reset.ctrl.listen = .stopped
      ∧ State.reset.ctrl.ask = .stopped ∧ State.reset.ctrl.stall = .stopped
      ∧ State.reset.ctrl.lowestTag = none ∧ State.reset.ctrl.askedTag = 0
      ∧ State.reset.ctrl.askCount = 0 ∧ State.reset.ctrl.snapshot.image = []
      ∧ State.reset.ctrl.snapshot.part = 0 ∧ State.reset.ctrl.snapshot.partCount = 0
      ∧ State.reset.ctrl.snapshot.tseq = 0 ∧ State.reset.ctrl.donorStation = none
      ∧ State.reset.ctrl.baseTseq = 0 ∧ State.reset.ctrl.presence = .stopped
      ∧ (∀ x : Station, State.reset.ctrl.silence[x] = none) ∧ State.reset.ctrl.holdoff = .stopped
      ∧ State.reset.ctrl.owed = { leave := false, admission := false, snapshot := false,
                                  presence := false, announce := false, joinAsk := false }
      ∧ State.reset.ctrl.founding = 0 ∧ State.reset.ctrl.joinAsks = [] ∧ State.reset.ctrl.donor = .none
      ∧ State.reset.ctrl.pendingApply = [] ∧ State.reset.ctrl.catchupCount = 0
      ∧ State.reset.ctrl.failed = false ∧ State.reset.ctrl.lastDetach = none
      ∧ State.reset.ctrl.evictions = [] ∧ State.reset.ctrl.evictInHand = none
      ∧ State.reset.ctrl.leaveMark = false ∧ State.reset.ctrl.lineFault = false
      ∧ (∀ k : RecordIndex, State.reset.records[k].state = .free ∧ State.reset.records[k].mark = .none
          ∧ State.reset.records[k].waitTimer = none ∧ State.reset.records[k].cancelOwed = none
          ∧ State.reset.records[k].owedDrop = false)
      ∧ State.reset.notices.list = [] ∧ State.reset.notices.attn = false
      ∧ State.reset.port.transaction = .closed ∧ State.reset.port.buffer = []
      ∧ State.reset.port.complete = none ∧ State.reset.port.held = none
      ∧ State.reset.port.miso = none ∧ State.reset.port.last = none
      ∧ State.reset.port.store.d = 16 ∧ State.reset.port.store.f = 0
      ∧ State.reset.port.store.timebase = 1000 ∧ State.reset.port.store.p = 10
      ∧ State.reset.port.store.k = 5 ∧ (∀ r : Resource, State.reset.port.store.limits[r] = 1)
      ∧ State.reset.timebase = 0)
    ∧ (
    (∀ (straps : BitVec 5) (auto csLow : Bool) (s : State),
      exec (.deviceReset straps auto csLow) s = .next
        { pending := s.pending,
          line :=
            { state := .settling, acc := 0, bitPos := 0, bitLen := 0, samples := [],
              lastRecessive := false, edge := false, shift := none, stream := [], framePos := 0,
              frameLen := none, dominantRun := 0, recessiveCount := 0, settleLen := 11,
              windowTimer := 0, vetoDriving := false, vetoSeen := false, windowOwn := false,
              breakDrive := none, breakWait := none, txChar := 0 },
          tx := { queue := [], attempts := 0, frame := [], reports := [], startReport := false },
          rx := { assembly := none, inbox := [], handoff := none, ownVetoes := 0 },
          table :=
            { condition := .absent, tag := 0, p := 10, k := 5, limits := Vector.replicate 64 1,
              roster := [], queues := Vector.replicate 64 [], tseq := 0 },
          ctrl :=
            { station := if auto then .listening else .offline, workingE := 500, learnedE := none,
              listen := if auto then .running 1000 else .stopped, lowestTag := none, askedTag := 0,
              ask := .stopped, askCount := 0, founding := 0, joinAsks := [], donor := .none,
              snapshot := { image := [], tseq := 0, partCount := 0, part := 0 }, staleParts := 0,
              donorStation := none, baseTseq := 0, pendingApply := [], catchupCount := 0,
              failed := false, stall := .stopped, configDiffers := false,
              owed := { leave := false, admission := false, snapshot := false, presence := false,
                        announce := false, joinAsk := false },
              presence := .stopped, silence := Vector.replicate 32 none, evictions := [],
              evictInHand := none, leaveMark := false, lineFault := false, holdoff := .stopped,
              lastDetach := none },
          records := Vector.replicate 32
            { state := .free, slot := 0, resource := 0, mode := .shared, noWait := false,
              waitLimit := 0, waitTimer := none, cancelOwed := none, dropReason := none,
              owedDrop := false, outcome := none, mark := .none },
          notices := { list := [], attn := false },
          port :=
            { transaction := .closed, csLow := csLow, buffer := [], complete := none, held := none,
              reply := .none, fillers := 0, miso := none, last := none, station := straps.toFin,
              auto := auto,
              store := { d := 16, f := 0, timebase := 1000, p := 10, k := 5,
                         limits := Vector.replicate 64 1 } },
          timebase := 0, lineIn := s.lineIn, freeCount := s.freeCount })
      ∧ exec (.deviceReset 0 false false) State.reset = .next State.reset)

/-- A falling edge of CS# opens a transaction with an empty buffer and a filler character on MISO; a
rising edge closes it and stops driving MISO, and withdraws no complete or held command. An edge to
the level CS# already has changes nothing, which is the model's choice (log entry 1). In COMMAND a
character is appended to the buffer with filler on MISO; when it completes a command the transaction
goes to RESPONSE and the command stands complete, is held behind one that does, or is discarded when
one is held already, with some number of filler characters to come. Nothing else of the part
changes, the straps, the configuration store and the last response among it, but for the model's
count of free values, from which the number of filler characters is drawn (log entry 6). In RESPONSE
MOSI is ignored: MISO carries filler while the answer is not ready, while filler characters remain
and after its last character, and the next answer character otherwise. In CLOSED a character changes
nothing. How many filler characters come is a free value (log entry 6). (R178, R181, R179, R180,
R182, R184) -/
def Obligations.TransactionsAndCharacters : Prop :=
  (
    ∀ s : State,
      (s.port.csLow = false → exec .transactionOpen s = .next
        { s with port := { s.port with transaction := .command, csLow := true, buffer := [],
                                       reply := .none, miso := some 0 } })
        ∧ (s.port.csLow = true → exec .transactionOpen s = .next s)
        ∧ (s.port.csLow = true → exec .transactionClose s = .next
            { s with port := { s.port with transaction := .closed, csLow := false, buffer := [],
                                           reply := .none, miso := none } })
        ∧ (s.port.csLow = false → exec .transactionClose s = .next s))
    ∧ (
    ∀ (c : Byte) (s : State), s.port.transaction = .command →
      let collected : Port := { s.port with buffer := s.port.buffer ++ [c], miso := some 0 }
      (parseCommand collected.buffer = none → exec (.portCharacter c) s = .next
        { s with port := collected, freeCount := s.freeCount + 1 })
      ∧ ∀ i, parseCommand collected.buffer = some i → ∃ n : Nat,
          let shown : Port := { collected with transaction := .response, fillers := n }
          (s.port.complete = none → exec (.portCharacter c) s = .next
            { s with port := { shown with complete := some i, reply := .awaitsComplete },
                     freeCount := s.freeCount + 1 })
          ∧ (s.port.complete ≠ none → s.port.held = none → exec (.portCharacter c) s = .next
            { s with port := { shown with held := some i, reply := .awaitsHeld },
                     freeCount := s.freeCount + 1 })
          ∧ (s.port.complete ≠ none → s.port.held ≠ none → exec (.portCharacter c) s = .next
            { s with port := { shown with reply := .discarded }, freeCount := s.freeCount + 1 }))
    ∧ (
    ∀ (c : Byte) (s : State),
      (s.port.transaction = .response →
        (∀ b rest, s.port.reply = .ready (b :: rest) → s.port.fillers = 0 →
          exec (.portCharacter c) s = .next
            { s with port := { s.port with miso := some b, reply := .ready rest } })
        ∧ (∀ b rest n, s.port.reply = .ready (b :: rest) → s.port.fillers = n + 1 →
          exec (.portCharacter c) s = .next
            { s with port := { s.port with miso := some 0, fillers := n } })
        ∧ ((∀ b rest, s.port.reply ≠ .ready (b :: rest)) →
          exec (.portCharacter c) s = .next { s with port := { s.port with miso := some 0 } }))
      ∧ (s.port.transaction = .closed → exec (.portCharacter c) s = .next s))

/-- Each command of R195 is read from its command character and its arguments in order, multi-
character values low character first; a character that names no command is complete at once as an
unknown command. (R195) -/
def Obligations.CommandLayouts : Prop :=
  (∀ dl dh f tl th p k : Byte,
      parseCommand [0x10, dl, dh, f, tl, th, p, k] = some (.configure (dh ++ dl) f (th ++ tl) p k))
    ∧ (∀ r l : Byte, parseCommand [0x11, r, l] = some (.defineResource r l))
    ∧ parseCommand [0x12] = some .join ∧ parseCommand [0x13] = some .leave
    ∧ (∀ s r f wl wh : Byte, parseCommand [0x20, s, r, f, wl, wh] = some (.claim s r f (wh ++ wl)))
    ∧ (∀ k : Byte, parseCommand [0x21, k] = some (.drop k))
    ∧ (∀ k o : Byte, parseCommand [0x22, k, o] = some (.readClaim k o))
    ∧ (∀ k : Byte, parseCommand [0x23, k] = some (.retire k))
    ∧ parseCommand [0x30] = some .readNotice
    ∧ (∀ s n : Byte, parseCommand [0x31, s, n] = some (.ackNotice s n))
    ∧ parseCommand [0x40] = some .readStatus ∧ parseCommand [0x41] = some .readRoster
    ∧ (∀ r p : Byte, parseCommand [0x42, r, p] = some (.readResource r p))
    ∧ parseCommand [0x4F] = some .repeatResponse
    ∧ (∀ c : Byte, argumentCount c = none → parseCommand [c] = some (.unknownCommand c))
    ∧ ∀ (c : Byte) (args : List Byte) (n : Nat), argumentCount c = some n → args.length < n →
        parseCommand (c :: args) = none

/-- For every command of the port but REPEAT-RESPONSE that the port takes: the last-response buffer
holds its command character, status and data afterwards; and when it stood complete, the held
command becomes the complete one and the answer is ready for the transaction that awaits it. A
command row that comes while none stands complete stands for a whole transaction whose answer no
transaction shows: the model's choice (log entry 1). While another command stands complete and not
taken, a command of the port has no effect: it becomes the held command, or is discarded when one is
held. That a row sent whole is held so too is the model's choice (log entry 1). REPEAT-RESPONSE
leaves the buffer unchanged; when it stood complete its answer is the kept status with the kept
command character before the kept data, or EMPTY with no data on an empty buffer. An unknown command
answers UNKNOWN-COMMAND and has no other effect. A REPEAT-RESPONSE row that comes with none standing
complete changes nothing (log entry 1). (R180, R182, R183) -/
def Obligations.CommandAnswersAndQueueing : Prop :=
  (
    ∀ (i : Instr) (c : Byte) (s : State), i.keptCharacter = some c → s.Takes i →
      ∃ t status data, exec i s = .next t
        ∧ t.port.last = some { command := c, status := status, data := data }
        ∧ (s.port.complete = none → t.port.complete = none ∧ t.port.held = s.port.held
            ∧ t.port.reply = s.port.reply)
        ∧ (s.port.complete = some i → t.port.complete = s.port.held ∧ t.port.held = none
            ∧ (s.port.reply = .awaitsComplete →
                t.port.reply = .ready (0x5A :: status.code :: byteOf data.length :: data))
            ∧ (s.port.reply = .awaitsHeld → t.port.reply = .awaitsComplete)))
    ∧ (
    ∀ (i j : Instr) (s : State), i.hostCommand = true → s.port.complete = some j → j ≠ i →
      (s.port.held = none → exec i s = .next { s with port := { s.port with held := some i } })
        ∧ (∀ h, s.port.held = some h → exec i s = .next s))
    ∧ (
    ∀ s : State,
      (s.port.complete = none → exec .repeatResponse s = .next s)
      ∧ (s.port.complete = some .repeatResponse → ∃ t, exec .repeatResponse s = .next t
          ∧ t = { s with port := t.port } ∧ t.port.last = s.port.last
          ∧ t.port.complete = s.port.held ∧ t.port.held = none
          ∧ (s.port.reply = .awaitsComplete →
              (∀ a, s.port.last = some a → t.port.reply =
                .ready (0x5A :: a.status.code :: byteOf (a.data.length + 1) :: a.command :: a.data))
              ∧ (s.port.last = none → t.port.reply = .ready [0x5A, 0x0B, 0])))
      ∧ ∀ c : Byte, s.Takes (.unknownCommand c) →
          exec (.unknownCommand c) s = .next (s.answered c .unknownCommand []))

/-- In OFFLINE with every value in range CONFIGURE sets D, F, the timebase divisor, P and k in one
event and answers OK; a new D or F restarts the line interface (with a break report if a frame was
in progress) and clears the line-fault flag, and a new divisor restarts the timebase; nothing else
changes. A frame is in progress when the frame position is above 0, and the restart empties the
stream but for the break report (log entry 20, DEDUCED; the bit timing of the restart is log entry
4). Otherwise it is refused with WRONG-STATE or BAD-ARGUMENT and changes nothing but the answer. In
OFFLINE with the resource 0 to 63 and the limit 0 to 16 the own shared limit of that resource takes
the new value and the answer is OK; in another state it is refused with WRONG-STATE, and with a
value out of range with BAD-ARGUMENT; nothing else changes. (R187, R186, R63, R135, R189, R188) -/
def Obligations.ConfigurationCommands : Prop :=
  (
    ∀ (d tb : BitVec 16) (f p k : Byte) (s : State), s.Takes (.configure d f tb p k) →
      (s.ctrl.station ≠ .offline →
        exec (.configure d f tb p k) s = .next (s.answered 0x10 .wrongState []))
      ∧ (s.ctrl.station = .offline →
        ¬ (16 ≤ d.toNat ∧ d.toNat ≤ 4095 ∧ f.toNat ≤ 7 ∧ 1000 ≤ tb.toNat ∧ tb.toNat ≤ 32000
            ∧ 1 ≤ p.toNat ∧ 3 ≤ k.toNat ∧ k.toNat ≤ 15) →
        exec (.configure d f tb p k) s = .next (s.answered 0x10 .badArgument []))
      ∧ (s.ctrl.station = .offline →
        (16 ≤ d.toNat ∧ d.toNat ≤ 4095 ∧ f.toNat ≤ 7 ∧ 1000 ≤ tb.toNat ∧ tb.toNat ≤ 32000
            ∧ 1 ≤ p.toNat ∧ 3 ≤ k.toNat ∧ k.toNat ≤ 15) →
        exec (.configure d f tb p k) s = .next (State.answered 0x10 .ok []
          { s with
            line := if s.port.store.d = d.toNat ∧ s.port.store.f = f.toNat then s.line
              else { LineIf.reset with stream := if s.line.framePos = 0 then [] else [.lineBreak] },
            ctrl := if s.port.store.d = d.toNat ∧ s.port.store.f = f.toNat then s.ctrl
              else { s.ctrl with lineFault := false },
            timebase := if s.port.store.timebase = tb.toNat then s.timebase else 0,
            port := { s.port with store :=
              { d := d.toNat, f := f.toNat, timebase := tb.toNat, p := p.toNat, k := k.toNat,
                limits := s.port.store.limits } } })))
    ∧ (
    ∀ (resource limit : Byte) (s : State), s.Takes (.defineResource resource limit) →
      (s.ctrl.station ≠ .offline →
        exec (.defineResource resource limit) s = .next (s.answered 0x11 .wrongState []))
      ∧ (s.ctrl.station = .offline → (63 < resource.toNat ∨ 16 < limit.toNat) →
        exec (.defineResource resource limit) s = .next (s.answered 0x11 .badArgument []))
      ∧ (s.ctrl.station = .offline → ∀ r : Resource, r.val = resource.toNat → limit.toNat ≤ 16 →
        exec (.defineResource resource limit) s = .next (State.answered 0x11 .ok []
          { s with port := { s.port with store :=
              { s.port.store with limits := s.port.store.limits.set r limit.toNat } } })))

/-- In OFFLINE JOIN answers OK, sets the working E to the own E, clears the learned E and the lowest
tag, and starts the listen timer at twice the own E, frozen during a line fault; in any other state
it is refused with WRONG-STATE. LEAVE: in MEMBER the leave mark is set, the station is LEAVING with
a LEAVE owed or queued, and every QUEUED claim not yet withdrawn is DONE or carries a cancel-owed
flag: with its CLAIM entry READY it is DONE with CANCELLED, the entry gone; with the entry ACTIVE
the entry takes the cancel mark and the record keeps QUEUED with cancel-owed WITHDRAWN; with no
entry, or with frame mark NONE, it keeps QUEUED likewise, its mark NONE. The wait timer of each is
stopped, each record that became DONE is posted to its slot in ascending index and nothing else is
posted, and of every other record only the owed drop and the frame mark can change, as its DROP is
queued. In CATCHUP with the mark clear the mark is set and the catch-up has failed, a LEAVE owed or
queued; where it had failed already only the mark changes. In LISTENING, FOUNDING, ASKING and
HOLDOFF the station is OFFLINE, flushed and cleared, with no notice posted and the last detach
reason kept, and an own attempt in CONTEND or SENDING is withdrawn with a break from the next bit
on, the line interface being left as it is otherwise (that the reports not yet taken by their owners
go with the flush is log entry 8, DEDUCED; that the bit in progress keeps its level until the break
is log entry 14, DEDUCED; and that the note of R125 is then false is log entry 40, a DESIGN CHOICE);
in LEAVING, and in CATCHUP with the mark set, ALREADY; in OFFLINE WRONG-STATE. (R190, R106, R105,
R141, R143, R168, R162, R152, R80, R104) -/
def Obligations.JoinAndLeaveByState : Prop :=
  (
    ∀ s : State, s.Takes .join →
      (s.ctrl.station = .offline → exec .join s = .next (State.answered 0x12 .ok []
        { s with ctrl := { s.ctrl with
            station := .listening, workingE := s.port.store.k * (s.port.store.p * 10),
            learnedE := none, lowestTag := none,
            listen := if s.ctrl.lineFault then .frozen (2 * (s.port.store.k * (s.port.store.p * 10)))
              else .running (2 * (s.port.store.k * (s.port.store.p * 10))) } }))
      ∧ (s.ctrl.station ≠ .offline → exec .join s = .next (s.answered 0x12 .wrongState [])))
    ∧ (
    ∀ s : State, s.Takes .leave →
      (s.ctrl.station = .offline → exec .leave s = .next (s.answered 0x13 .wrongState []))
      ∧ (s.ctrl.station = .leaving ∨ s.ctrl.station = .catchup ∧ s.ctrl.leaveMark = true →
          exec .leave s = .next (s.answered 0x13 .already []))
      ∧ (s.ctrl.station = .member → ∃ t, exec .leave s = .next t
          ∧ t.port = s.port.taken (some 0x13) .ok []
          ∧ t.ctrl.station = .leaving ∧ t.ctrl.leaveMark = true
          ∧ (t.ctrl.owed.leave = true ∨ ∃ e ∈ t.tx.queue, e.kind = .leave ∧ e.owner = .controller)
          ∧ (∀ k : RecordIndex, s.records[k].state = .queued →
              t.records[k].state = .done
                ∨ t.records[k].state = .queued ∧ t.records[k].cancelOwed.isSome = true)
          ∧ (s.tx.Law → s.ClaimLaw →
              t.notices = s.postsFor (allRecords.filter fun k =>
                decide (s.records[k].state = .queued ∧ s.records[k].cancelOwed = none
                  ∧ s.records[k].mark = .claim
                  ∧ ∃ e ∈ s.tx.queue, e.owner = .claimUnit k ∧ e.state = .ready))
              ∧ ∀ k : RecordIndex, s.records[k].state = .queued → s.records[k].cancelOwed = none →
                let awaits : ClaimRecord :=
                  { s.records[k] with waitTimer := none, cancelOwed := some .withdrawn }
                (∀ e ∈ s.tx.queue, s.records[k].mark = .claim → e.owner = .claimUnit k →
                  (e.state = .ready →
                    t.records[k] = { s.records[k] with
                      state := .done, waitTimer := none, cancelOwed := none, dropReason := none,
                      owedDrop := false, outcome := some .cancelled, mark := .none }
                    ∧ ∀ x ∈ t.tx.queue, x.owner ≠ .claimUnit k)
                  ∧ (e.state = .active →
                    t.records[k] = awaits ∧ { e with cancel := true } ∈ t.tx.queue))
                ∧ (s.records[k].mark = .claim → (∀ e ∈ s.tx.queue, e.owner ≠ .claimUnit k) →
                  t.records[k] = { awaits with mark := .none })
                ∧ (s.records[k].mark ≠ .claim → t.records[k] = awaits))
          ∧ (∀ k : RecordIndex, s.records[k].state ≠ .queued ∨ s.records[k].cancelOwed ≠ none →
              t.records[k] = { s.records[k] with
                owedDrop := t.records[k].owedDrop, mark := t.records[k].mark })
          ∧ t.line = s.line ∧ t.rx = s.rx ∧ t.table = s.table ∧ t.timebase = s.timebase)
      ∧ (s.ctrl.station = .catchup → s.ctrl.leaveMark = false → ∃ t, exec .leave s = .next t
          ∧ t.port = s.port.taken (some 0x13) .ok []
          ∧ t.ctrl.station = .catchup ∧ t.ctrl.leaveMark = true ∧ t.ctrl.failed = true
          ∧ t.ctrl.catchupCount = s.ctrl.catchupCount
          ∧ (s.ctrl.failed = false → t.ctrl.pendingApply = [] ∧ t.ctrl.snapshot = .empty
              ∧ t.ctrl.stall = .running s.ctrl.workingE
              ∧ (t.ctrl.owed.leave = true
                  ∨ ∃ e ∈ t.tx.queue, e.kind = .leave ∧ e.owner = .controller))
          ∧ (s.ctrl.failed = true →
              t = State.answered 0x13 .ok [] { s with ctrl := { s.ctrl with leaveMark := true } })
          ∧ t.line = s.line ∧ t.rx = s.rx ∧ t.table = s.table ∧ t.notices = s.notices)
      ∧ (s.ctrl.station = .listening ∨ s.ctrl.station = .founding ∨ s.ctrl.station = .asking
          ∨ s.ctrl.station = .holdoff → ∃ t, exec .leave s = .next t
          ∧ t.port = s.port.taken (some 0x13) .ok []
          ∧ t.ctrl = { Controller.reset with
              station := .offline, workingE := s.ownE, founding := s.ctrl.founding,
              lineFault := s.ctrl.lineFault, lastDetach := s.ctrl.lastDetach }
          ∧ t.tx = .empty
          ∧ t.rx = { s.rx with inbox := [], handoff := none, ownVetoes := 0 }
          ∧ t.line = s.lineFlushed
          ∧ t.table = s.table ∧ t.records = s.records ∧ t.notices = s.notices
          ∧ t.timebase = s.timebase))

/-- In MEMBER, with slot and resource in range, no live record of the same slot and resource, k the
lowest-numbered FREE record with frame mark NONE, 5 entries or fewer queued and none of record k:
record k becomes QUEUED with the command's fields and frame mark CLAIM, its wait timer starts at a
limit above 0, the CLAIM frame is the tail of the queue, the change is posted to the slot, the
answer is OK with the index, and nothing else changes, but that every report still waiting for a
frame of record k is taken first, in the same event, by which an ACCEPTED among them restarts the
presence timer: that is the model's choice (log entry 32, DEDUCED from R198). CLAIM: WRONG-STATE
outside MEMBER; then BAD-ARGUMENT for a slot above 7 or a resource above 63; then DUPLICATE for a
live record of the same slot and resource; then NO-RECORD when no record is FREE with frame mark
NONE; then QUEUE-FULL when more than 5 entries are queued. No record, notice or frame changes.
(R153, R154, R66, R196, R198) -/
def Obligations.ClaimTakenOrRefused : Prop :=
  (
    ∀ (slot resource flags : Byte) (wl : BitVec 16) (sl : Slot) (r : Resource) (k : RecordIndex)
        (s : State),
      s.Takes (.claim slot resource flags wl) → s.ctrl.station = .member →
      sl.val = slot.toNat → r.val = resource.toNat →
      (∀ j : RecordIndex, s.records[j].state.live = true → s.records[j].slot = sl →
        s.records[j].resource ≠ r) →
      s.records[k].state = .free → s.records[k].mark = .none →
      (∀ j : RecordIndex, j < k → s.records[j].state = .free → s.records[j].mark ≠ .none) →
      s.tx.queue.length ≤ 5 → (∀ e ∈ s.tx.queue, e.owner ≠ .claimUnit k) →
      let taken (ctrl : Controller) : State := State.answered 0x20 .ok [byteOf k.val]
        { s with
          tx := { s.tx with
            queue := s.tx.queue ++
              [{ kind := .claim, owner := .claimUnit k, body := [resource, byteOf k.val, flags &&& 3],
                 state := .ready, cancel := false, lastActive := false }],
            reports := s.tx.reports.filter fun x => decide (x.owner ≠ .claimUnit k) },
          ctrl := ctrl,
          records := s.records.set k
            { state := .queued, slot := sl, resource := r,
              mode := if flags.getLsbD 0 then .exclusive else .shared, noWait := flags.getLsbD 1,
              waitLimit := wl, waitTimer := if wl = 0 then none else some wl.toNat,
              cancelOwed := none, dropReason := none, owedDrop := false, outcome := none,
              mark := .claim },
          notices := s.notices.post (.slot sl) (byteOf k.val) }
      ((∀ kind, .accepted kind (.claimUnit k) ∉ s.tx.reports) →
        exec (.claim slot resource flags wl) s = .next (taken s.ctrl))
      ∧ ((∃ kind, .accepted kind (.claimUnit k) ∈ s.tx.reports) →
        exec (.claim slot resource flags wl) s = .next
          (taken { s.ctrl with presence := .running (s.table.p * 10) })))
    ∧ (
    ∀ (slot resource flags : Byte) (wl : BitVec 16) (s : State),
      s.Takes (.claim slot resource flags wl) →
      (s.ctrl.station ≠ .member →
        exec (.claim slot resource flags wl) s = .next (s.answered 0x20 .wrongState []))
      ∧ (s.ctrl.station = .member → (7 < slot.toNat ∨ 63 < resource.toNat) →
        exec (.claim slot resource flags wl) s = .next (s.answered 0x20 .badArgument []))
      ∧ ∀ (sl : Slot) (r : Resource), s.ctrl.station = .member → sl.val = slot.toNat →
          r.val = resource.toNat →
          (∀ j : RecordIndex, s.records[j].state.live = true → s.records[j].slot = sl →
            s.records[j].resource = r →
            exec (.claim slot resource flags wl) s = .next (s.answered 0x20 .duplicate []))
          ∧ ((∀ j : RecordIndex, s.records[j].state.live = true → s.records[j].slot = sl →
                s.records[j].resource ≠ r) →
            ((∀ j : RecordIndex, s.records[j].state = .free → s.records[j].mark ≠ .none) →
              exec (.claim slot resource flags wl) s = .next (s.answered 0x20 .noRecord []))
            ∧ ((∃ j : RecordIndex, s.records[j].state = .free ∧ s.records[j].mark = .none) →
              5 < s.tx.queue.length →
              exec (.claim slot resource flags wl) s = .next (s.answered 0x20 .queueFull []))))

/-- DROP: WRONG-STATE outside MEMBER and LEAVING; then BAD-ARGUMENT above 31; ALREADY for a DROPPING
record and for a QUEUED one with its cancel-owed flag set; NOT-ACTIVE for DONE and FREE; QUEUE-FULL
for a WAITING or GRANTED record without a queued frame while more than 5 entries are queued. For a
WAITING or GRANTED record with frame mark NONE and room, the record becomes DROPPING (WITHDRAWN from
WAITING, RELEASED from GRANTED) with its wait timer stopped and frame mark DROP, the DROP frame is
the tail of the queue, the change is posted, and nothing else changes. With frame mark CLAIM and its
entry in the queue, the record becomes DROPPING with the same reason and its drop owed. With frame
mark CLAIM and its entry already gone from the queue, its ACCEPTED report not yet taken, the record
becomes DROPPING likewise: with 8 entries queued its drop is owed, and with fewer, where no other
owed frame waited for a place, the owed DROP is queued in the same event with frame mark DROP, and
nothing else changes. (R161, R196, R156, R66, R67, R69) -/
def Obligations.DropRefusedOrTaken : Prop :=
  (
    ∀ (record : Byte) (s : State), s.Takes (.drop record) →
      (s.ctrl.station ≠ .member → s.ctrl.station ≠ .leaving →
        exec (.drop record) s = .next (s.answered 0x21 .wrongState []))
      ∧ (s.ctrl.station = .member ∨ s.ctrl.station = .leaving →
        (31 < record.toNat → exec (.drop record) s = .next (s.answered 0x21 .badArgument []))
        ∧ ∀ k : RecordIndex, k.val = record.toNat →
          (s.records[k].state = .dropping
              ∨ s.records[k].state = .queued ∧ s.records[k].cancelOwed.isSome = true →
            exec (.drop record) s = .next (s.answered 0x21 .already []))
          ∧ (s.records[k].state = .done ∨ s.records[k].state = .free →
            exec (.drop record) s = .next (s.answered 0x21 .notActive []))
          ∧ (s.records[k].state = .waiting ∨ s.records[k].state = .granted →
            s.records[k].mark = .none → (∀ e ∈ s.tx.queue, e.owner ≠ .claimUnit k) →
            5 < s.tx.queue.length →
            exec (.drop record) s = .next (s.answered 0x21 .queueFull []))))
    ∧ (
    ∀ (record : Byte) (k : RecordIndex) (s : State),
      s.Takes (.drop record) → (s.ctrl.station = .member ∨ s.ctrl.station = .leaving) →
      k.val = record.toNat → ∀ reason : DropReason,
      (s.records[k].state = .waiting ∧ reason = .withdrawn
        ∨ s.records[k].state = .granted ∧ reason = .released) →
      (s.records[k].mark = .none → (∀ e ∈ s.tx.queue, e.owner ≠ .claimUnit k) →
        s.tx.queue.length ≤ 5 →
        exec (.drop record) s = .next (State.answered 0x21 .ok []
          { s with
            tx := { s.tx with queue := s.tx.queue ++
              [{ kind := .drop, owner := .claimUnit k,
                 body := [byteOf s.records[k].resource.val, record], state := .ready,
                 cancel := false, lastActive := false }] },
            records := s.records.set k
              { s.records[k] with state := .dropping, waitTimer := none, cancelOwed := none,
                                  dropReason := some reason, mark := .drop },
            notices := s.notices.post (.slot s.records[k].slot) record }))
      ∧ (s.records[k].mark = .claim → (∃ e ∈ s.tx.queue, e.owner = .claimUnit k) →
        ∃ t, exec (.drop record) s = .next t ∧ t.port = s.port.taken (some 0x21) .ok []
          ∧ t.records[k].state = .dropping ∧ t.records[k].dropReason = some reason
          ∧ t.records[k].waitTimer = none ∧ t.records[k].owedDrop = true
          ∧ t.records[k].mark = .claim
          ∧ t.notices = s.notices.post (.slot s.records[k].slot) record
          ∧ t.line = s.line ∧ t.rx = s.rx ∧ t.table = s.table)
      ∧ (s.records[k].mark = .claim → (∀ e ∈ s.tx.queue, e.owner ≠ .claimUnit k) →
        let dropping : ClaimRecord :=
          { s.records[k] with state := .dropping, waitTimer := none, cancelOwed := none,
                              dropReason := some reason, owedDrop := true }
        let posted := s.notices.post (.slot s.records[k].slot) record
        (8 ≤ s.tx.queue.length → exec (.drop record) s = .next (State.answered 0x21 .ok []
          { s with records := s.records.set k dropping, notices := posted }))
        ∧ (s.tx.queue.length < 8 → s.OwedLaw →
          exec (.drop record) s = .next (State.answered 0x21 .ok []
            { s with
              tx := { s.tx with queue := s.tx.queue ++
                [{ kind := .drop, owner := .claimUnit k,
                   body := [byteOf s.records[k].resource.val, record], state := .ready,
                   cancel := false, lastActive := false }] },
              records := s.records.set k { dropping with owedDrop := false, mark := .drop },
              notices := posted }))))

/-- For a QUEUED record with its cancel-owed flag clear: with its CLAIM entry READY the entry leaves
the queue, the place freed goes to the owed frames by R67 (State.handOut, of which O22 says what it
does), the record becomes DONE with CANCELLED and frame mark NONE, and the change is posted; with
the entry ACTIVE the cancel mark is set on it and the record keeps QUEUED with cancel-owed
WITHDRAWN; with frame mark NONE, or with no entry in the queue, it keeps QUEUED with cancel-owed
WITHDRAWN and frame mark NONE. The wait timer stops in every case. (R162, R78, R67) -/
def Obligations.DropOfQueuedClaim : Prop :=
  ∀ (record : Byte) (k : RecordIndex) (s : State),
    s.Takes (.drop record) → (s.ctrl.station = .member ∨ s.ctrl.station = .leaving) →
    k.val = record.toNat → s.records[k].state = .queued → s.records[k].cancelOwed = none →
    (∀ before e after, s.records[k].mark = .claim → s.tx.queue = before ++ e :: after →
      e.owner = .claimUnit k → (∀ x ∈ before, x.owner ≠ .claimUnit k) →
      (e.state = .ready →
        let freed := State.handOut { s with
          tx := { s.tx with queue := before ++ after },
          records := s.records.set k { s.records[k] with waitTimer := none } }
        exec (.drop record) s = .next (State.answered 0x21 .ok []
          { freed with
            records := freed.records.set k
              { s.records[k] with
                state := .done, waitTimer := none, cancelOwed := none, dropReason := none,
                owedDrop := false, outcome := some .cancelled, mark := .none },
            notices := s.notices.post (.slot s.records[k].slot) record }))
      ∧ (e.state = .active → (∀ x ∈ after, x.owner ≠ .claimUnit k) →
        exec (.drop record) s = .next (State.answered 0x21 .ok []
          { s with
            tx := { s.tx with queue := before ++ { e with cancel := true } :: after },
            records := s.records.set k
              { s.records[k] with waitTimer := none, cancelOwed := some .withdrawn } })))
    ∧ (s.records[k].mark = .none ∨ s.records[k].mark = .claim
          ∧ (∀ x ∈ s.tx.queue, x.owner ≠ .claimUnit k) →
      exec (.drop record) s = .next (State.answered 0x21 .ok []
        { s with
          records := s.records.set k
            { s.records[k] with waitTimer := none, cancelOwed := some .withdrawn,
                                mark := .none } }))

/-- READ-CLAIM of a record above 31 is refused with BAD-ARGUMENT. Otherwise the answer is OK with
the ten characters of R196: the index, the state, the slot, the resource, the flags, the wait limit,
the remaining wait time, and the cancel-owed reason, drop reason or outcome; of a FREE record every
field but the first two reads 0, except the flag that shows the frame mark. The record becomes FREE,
keeping its frame mark, exactly when the option's bit 0 is set and the record is DONE; nothing else
changes. (The fields that a FREE record keeps are log entry 9.) RETIRE of a record above 31 is
refused with BAD-ARGUMENT; a DONE record becomes FREE with OK; a FREE one answers ALREADY; a QUEUED,
WAITING, GRANTED or DROPPING one WRONG-STATE; in every station state, and with the notice queue
untouched. (R166, R196, R151, R167) -/
def Obligations.RecordsReadAndRetired : Prop :=
  (
    ∀ (record option : Byte) (s : State), s.Takes (.readClaim record option) →
      (31 < record.toNat →
        exec (.readClaim record option) s = .next (s.answered 0x22 .badArgument []))
      ∧ ∀ k : RecordIndex, k.val = record.toNat →
        let r := s.records[k]
        let code : Byte := match r.state with
          | .free => 0 | .queued => 1 | .waiting => 2 | .granted => 3 | .dropping => 4 | .done => 5
        let reason : Byte := match r.state, r.cancelOwed, r.dropReason, r.outcome with
          | .queued, some .withdrawn, _, _ => 2
          | .queued, some .timedOut, _, _ => 3
          | .dropping, _, some .released, _ => 1
          | .dropping, _, some .withdrawn, _ => 2
          | .dropping, _, some .timedOut, _ => 3
          | .done, _, _, some .released => 1
          | .done, _, _, some .withdrawn => 2
          | .done, _, _, some .timedOut => 3
          | .done, _, _, some .cancelled => 4
          | .done, _, _, some .refusedUndefined => 5
          | .done, _, _, some .refusedDuplicate => 6
          | .done, _, _, some .refusedFull => 7
          | .done, _, _, some .refusedBusy => 8
          | .done, _, _, some .lost => 9
          | _, _, _, _ => 0
        let left : BitVec 16 := BitVec.ofNat 16 (r.waitTimer.getD 0)
        let data (retired : Bool) : List Byte :=
          if r.state = .free then
            [record, code, 0, 0, if r.mark = .none then 0 else 4, 0, 0, 0, 0, 0]
          else
            [record, code, byteOf r.slot.val, byteOf r.resource.val,
             byteOf ((if r.mode = .exclusive then 1 else 0) + (if r.noWait then 2 else 0)
               + (if r.mark = .none then 0 else 4) + (if retired then 8 else 0)
               + (if r.state = .queued ∧ r.cancelOwed ≠ none then 16 else 0)),
             r.waitLimit.extractLsb' 0 8, r.waitLimit.extractLsb' 8 8,
             left.extractLsb' 0 8, left.extractLsb' 8 8, reason]
        (option.getLsbD 0 = true → r.state = .done →
          exec (.readClaim record option) s = .next
            (State.answered 0x22 .ok (data true)
              { s with records := s.records.set k (.freed r.mark) }))
        ∧ (option.getLsbD 0 = false ∨ r.state ≠ .done →
          exec (.readClaim record option) s = .next (s.answered 0x22 .ok (data false))))
    ∧ (
    ∀ (record : Byte) (s : State), s.Takes (.retire record) →
      (31 < record.toNat → exec (.retire record) s = .next (s.answered 0x23 .badArgument []))
      ∧ ∀ k : RecordIndex, k.val = record.toNat →
        (s.records[k].state = .done → exec (.retire record) s = .next (State.answered 0x23 .ok []
          { s with records := s.records.set k (.freed s.records[k].mark) }))
        ∧ (s.records[k].state = .free →
          exec (.retire record) s = .next (s.answered 0x23 .already []))
        ∧ (s.records[k].state = .queued ∨ s.records[k].state = .waiting
            ∨ s.records[k].state = .granted ∨ s.records[k].state = .dropping →
          exec (.retire record) s = .next (s.answered 0x23 .wrongState [])))

/-- In every station state READ-NOTICE answers EMPTY with no data on an empty list, and otherwise OK
with the head's subject, change count and detail; it removes nothing, keeps count and detail, and
clears the head's saturation mark. (R173) -/
def Obligations.ReadNoticeAnswer : Prop :=
  ∀ s : State, s.Takes .readNotice →
    (s.notices.list = [] → exec .readNotice s = .next (s.answered 0x30 .empty []))
    ∧ ∀ n rest, s.notices.list = n :: rest →
      exec .readNotice s = .next
        (State.answered 0x30 .ok [n.subject.code, byteOf n.count, n.detail]
          { s with notices := { s.notices with list := { n with saturated := false } :: rest } })

/-- ACK-NOTICE: BAD-ARGUMENT for a character that names no subject; then EMPTY; NOT-HEAD when the
head has another subject; STALE when the counts differ, or at 255 with the saturation mark set;
otherwise OK and the head is removed, with ATTN# released when it was the last. (That a change count
of 0 removes no notice follows in the states of the notice law, where every count is 1 to 255.)
(R174, R170, R171) -/
def Obligations.AckNoticeAnswer : Prop :=
  ∀ (subject count : Byte) (s : State), s.Takes (.ackNotice subject count) →
    (¬ (subject.toNat ≤ 7 ∨ 0x10 ≤ subject.toNat ∧ subject.toNat ≤ 0x15) →
      exec (.ackNotice subject count) s = .next (s.answered 0x31 .badArgument []))
    ∧ ((subject.toNat ≤ 7 ∨ 0x10 ≤ subject.toNat ∧ subject.toNat ≤ 0x15) →
      (s.notices.list = [] →
        exec (.ackNotice subject count) s = .next (s.answered 0x31 .empty []))
      ∧ ∀ n rest, s.notices.list = n :: rest →
        (n.subject.code ≠ subject →
          exec (.ackNotice subject count) s = .next (s.answered 0x31 .notHead []))
        ∧ (n.subject.code = subject → n.count ≠ count.toNat →
          exec (.ackNotice subject count) s = .next (s.answered 0x31 .stale []))
        ∧ (n.subject.code = subject → n.count = count.toNat → n.count = 255 →
          n.saturated = true →
          exec (.ackNotice subject count) s = .next (s.answered 0x31 .stale []))
        ∧ (n.subject.code = subject → n.count = count.toNat →
          (n.count ≠ 255 ∨ n.saturated = false) →
          exec (.ackNotice subject count) s = .next (State.answered 0x31 .ok []
            { s with notices := { list := rest, attn := !rest.isEmpty } })))

/-- A post asserts ATTN#. Without a notice of the subject one is appended at the tail with count 1;
with one at count below 255 the count rises by 1 and the detail is replaced in place; at 255 the
detail is replaced and the saturation mark set. Every other notice keeps its place and contents.
(R171, R176) -/
def Obligations.PostCoalesces : Prop :=
  ∀ (subject : Subject) (detail : Byte) (q : NoticeQueue),
    (q.post subject detail).attn = true
    ∧ ((∀ n ∈ q.list, n.subject ≠ subject) → (q.post subject detail).list = q.list ++
        [{ subject := subject, count := 1, detail := detail, saturated := false }])
    ∧ ∀ before n after, q.list = before ++ n :: after → n.subject = subject →
        (∀ m ∈ before, m.subject ≠ subject) →
        (n.count < 255 → (q.post subject detail).list =
          before ++ { n with count := n.count + 1, detail := detail } :: after)
        ∧ (255 ≤ n.count → (q.post subject detail).list =
          before ++ { n with detail := detail, saturated := true } :: after)

/-- In every station state READ-STATUS answers OK with the station number and AUTO, the station
state, the group tag, TSEQ low and high, the roster count, entries used, the own-veto counter, the
last detach reason or 0, and the line-interface state, and changes nothing but the answer. In
PRESENT with the resource 0 to 63 the answer is OK with the limit, the queue length, the first
position, TSEQ and the entries from that position, at most 80, three characters each (station;
record index with bit 6 for GRANTED and bit 7 for EXCLUSIVE; zero); not PRESENT is WRONG-STATE, and
a resource above 63 BAD-ARGUMENT. The status characters of R183, and by the tables of R196 the codes
of the station states, the detach reasons, the line-interface states, the record states, the reasons
and outcomes of claims, and the subjects of notices. (R192, R194, R183, R196, R170) -/
def Obligations.StatusAndResourceRead : Prop :=
  (
    ∀ s : State, s.Takes .readStatus →
      exec .readStatus s = .next (s.answered 0x40 .ok
        [ byteOf s.port.station.val ||| (if s.port.auto then 0x80 else 0),
          s.ctrl.station.code, s.table.tag, s.table.tseq.extractLsb' 0 8,
          s.table.tseq.extractLsb' 8 8, byteOf s.table.roster.length, byteOf s.table.entriesUsed,
          byteOf s.rx.ownVetoes,
          (match s.ctrl.lastDetach with
            | none => 0
            | some reason => reason.code),
          s.line.state.code ]))
    ∧ (
    ∀ (resource first : Byte) (s : State), s.Takes (.readResource resource first) →
      (s.table.condition ≠ .present →
        exec (.readResource resource first) s = .next (s.answered 0x42 .wrongState []))
      ∧ (s.table.condition = .present → 63 < resource.toNat →
        exec (.readResource resource first) s = .next (s.answered 0x42 .badArgument []))
      ∧ (s.table.condition = .present → ∀ r : Resource, r.val = resource.toNat →
        exec (.readResource resource first) s = .next (s.answered 0x42 .ok
          ([ byteOf s.table.limits[r], byteOf s.table.queues[r].length, first,
             s.table.tseq.extractLsb' 0 8, s.table.tseq.extractLsb' 8 8 ]
            ++ ((s.table.queues[r].drop first.toNat).take 80).flatMap fun e =>
                [ byteOf e.station.val,
                  byteOf (e.record.val + (if e.granted then 64 else 0)
                    + (if e.mode = .exclusive then 128 else 0)), 0 ]))))
    ∧ (
    ([.ok, .already, .wrongState, .badArgument, .queueFull, .noRecord, .duplicate, .notActive, .stale,
        .notHead, .empty, .unknownCommand] : List Status).map Status.code
        = [0x01, 0x02, 0x03, 0x04, 0x05, 0x06, 0x07, 0x08, 0x09, 0x0A, 0x0B, 0x0C]
      ∧ ([.offline, .listening, .founding, .asking, .catchup, .member, .leaving, .holdoff] :
          List StationState).map StationState.code = [0, 1, 2, 3, 4, 5, 6, 7]
      ∧ ([.evicted, .left, .foreignGroup, .diverged, .vetoLimit, .attemptLimit, .catchupFailed,
          .lineFault, .askFailed] : List DetachReason).map DetachReason.code
          = [1, 2, 3, 4, 5, 6, 7, 8, 9]
      ∧ ([.idle, .contend, .sending, .receiving, .window, .settling, .breaking, .fault] :
          List LineState).map LineState.code = [0, 1, 2, 3, 4, 5, 6, 7]
      ∧ ([.free, .queued, .waiting, .granted, .dropping, .done] : List RecordState).map
          RecordState.code = [0, 1, 2, 3, 4, 5]
      ∧ ([.released, .withdrawn, .timedOut, .cancelled, .refusedUndefined, .refusedDuplicate,
          .refusedFull, .refusedBusy, .lost] : List ClaimOutcome).map ClaimOutcome.code
          = [1, 2, 3, 4, 5, 6, 7, 8, 9]
      ∧ ([.joined, .detached, .rosterChanged, .lineFault, .lineRestored, .configAdopted] :
          List Subject).map Subject.code = [0x10, 0x11, 0x12, 0x13, 0x14, 0x15]
      ∧ ∀ n : Slot, (Subject.slot n).code = byteOf n.val)

/-- With the replica PRESENT the answer is OK with the roster count and the stations, head first; in
ABSENT and PENDING it is refused with WRONG-STATE; nothing but the answer changes. A roster of 32
gives 33 characters. (R193) -/
def Obligations.ReadRosterAnswer : Prop :=
  ∀ s : State, s.Takes .readRoster →
    (s.table.condition = .present → exec .readRoster s = .next
      (s.answered 0x41 .ok (byteOf s.table.roster.length :: s.table.roster.map fun x => byteOf x.val)))
    ∧ (s.table.condition ≠ .present →
      exec .readRoster s = .next (s.answered 0x41 .wrongState []))
    ∧ (s.table.roster.length = 32 →
      (byteOf s.table.roster.length :: s.table.roster.map fun x => byteOf x.val).length = 33)

/-- When the timebase has counted its divisor, TIMEBASE_TICK sets it to 0, lowers each running
listen, ask, stall, presence, holdoff, silence and wait timer that has time left by 1, and changes
nothing else: a stopped or frozen timer, and one that has run out, keep their value. (R189, R163,
R135) -/
def Obligations.TimebaseTickCountsTimers : Prop :=
  ∀ s : State, s.port.store.timebase ≤ s.timebase → ∃ t, exec .timebaseTick s = .next t
    ∧ t = { s with timebase := 0, ctrl := t.ctrl, records := t.records }
    ∧ t.ctrl = { s.ctrl with listen := t.ctrl.listen, ask := t.ctrl.ask, stall := t.ctrl.stall,
                             presence := t.ctrl.presence, holdoff := t.ctrl.holdoff,
                             silence := t.ctrl.silence }
    ∧ (∀ timer : Controller → Timer,
        timer = Controller.listen ∨ timer = Controller.ask ∨ timer = Controller.stall
          ∨ timer = Controller.presence ∨ timer = Controller.holdoff →
        (∀ n, timer s.ctrl = .running (n + 1) → timer t.ctrl = .running n)
          ∧ (∀ n, timer s.ctrl = .frozen n → timer t.ctrl = .frozen n)
          ∧ (timer s.ctrl = .running 0 → timer t.ctrl = .running 0)
          ∧ (timer s.ctrl = .stopped → timer t.ctrl = .stopped))
    ∧ (∀ x : Station,
        (∀ n, s.ctrl.silence[x] = some (.running (n + 1)) →
          t.ctrl.silence[x] = some (.running n))
          ∧ ((∀ n, s.ctrl.silence[x] ≠ some (.running (n + 1))) →
            t.ctrl.silence[x] = s.ctrl.silence[x]))
    ∧ (∀ k : RecordIndex,
        (∀ n, s.records[k].waitTimer = some (n + 1) →
          t.records[k] = { s.records[k] with waitTimer := some n })
          ∧ ((∀ n, s.records[k].waitTimer ≠ some (n + 1)) → t.records[k] = s.records[k]))

/-- A reference period adds 1 to the timebase count, takes one item of the line's outside and moves
the line interface on; nothing else of the part changes. The station drives LINE for a break, for a
veto, and in CONTEND and SENDING at the level of its frame's bit, and not otherwise. A period that
reads dominant after recessive while start edges are looked for is kept for START_EDGE and not
counted. Any other period is counted, the first of a bit with F added to the accumulator and the
length D or D + 1, and its level is kept as a sample at c - q, c and c + q. The period that ends a
bit gives it the majority of its samples: the dominant run rises to at most 1024 or returns to 0,
and a break being driven counts one more bit time. In a character the level joins it, with a noise
mark where the samples differ. In WINDOW the timer rises, and a veto is seen by a run of 12 that
began in the first 6 bit times. In SETTLING, BREAK and FAULT the recessive count rises or returns to
0, in RECEIVING it rises or stays, and elsewhere nothing is counted. The model's choices in it:
LINE's level comes from one item of lineIn, with nothing pulling after the last (log entry 3); the
level read last is kept within a character too (log entry 33); a run in progress when a window opens
counts from the opening (log entry 13); a break begins with the bit after the one in progress (log
entry 14); a dominant bit time in a gap leaves its count (log entry 15). With the accumulator at 0
and F from 0 to 7, the lengths that eleven successive bits take by R49 add up to 11 x D plus 11 x F
/ 8 rounded down, and the accumulator stays 0 to 7. (R34, R48, R49, R50, R51, R54, R55, R58, R60,
R61, R62, R189) -/
def Obligations.ClockAndBitTiming : Prop :=
  (
    ∀ s : State,
      s.clock = { s with line := s.clock.line, timebase := s.timebase + 1, lineIn := s.lineIn.tail }
      ∧ (∀ n, s.line.breakDrive = some n → s.line.breakWait = none → s.ownDrive = .dominant)
      ∧ (∀ n held, s.line.breakDrive = some n → s.line.breakWait = some held → s.ownDrive = held)
      ∧ (s.line.breakDrive = none →
          (s.line.vetoDriving = true → s.ownDrive = .dominant)
          ∧ (s.line.vetoDriving = false →
            (s.line.state ≠ .contend → s.line.state ≠ .sending → s.ownDrive = .recessive)
            ∧ ∀ (h : Shift) (c : Byte), (s.line.state = .contend ∨ s.line.state = .sending) →
              s.line.shift = some h → s.tx.frame[s.line.txChar]? = some c →
              s.ownDrive = (match h.bits.length with
                | 0 => .dominant
                | 9 => if s.line.txChar = 0 then .recessive else .dominant
                | n + 1 => if n < 8 ∧ c.getLsbD n = false then .dominant else .recessive)))
      ∧ ∀ level : Level,
          level = (match s.lineIn.head? with
            | some .pulled => .dominant
            | some .stuck => .recessive
            | some .released | none => s.ownDrive) →
          let d := s.port.store.d
          let f := s.port.store.f
          let edge := (s.line.state = .idle ∨ s.line.state = .settling ∨ s.line.state = .receiving)
            ∧ s.line.shift = none ∧ s.line.lastRecessive = true ∧ level = .dominant
          let begun : LineIf :=
            if s.line.bitPos = 0 then
              { s.line with acc := if 8 ≤ s.line.acc + f then s.line.acc + f - 8 else s.line.acc + f,
                            bitLen := if 8 ≤ s.line.acc + f then d + 1 else d, samples := [] }
            else s.line
          let counted : LineIf :=
            { begun with
              bitPos := s.line.bitPos + 1, lastRecessive := decide (level = .recessive),
              samples :=
                if s.line.bitPos = d / 2 - d / 8 ∨ s.line.bitPos = d / 2
                    ∨ s.line.bitPos = d / 2 + d / 8
                then begun.samples ++ [level] else begun.samples }
          (edge → s.clock.line = { s.line with edge := true, lastRecessive := false })
          ∧ (¬ edge → counted.bitPos < counted.bitLen → s.clock.line = counted)
          ∧ (¬ edge → counted.bitLen ≤ counted.bitPos →
            let read : Level :=
              if 2 ≤ counted.samples.count .dominant then .dominant else .recessive
            let run := if read = .dominant then min 1024 (s.line.dominantRun + 1) else 0
            let ended : LineIf :=
              { counted with
                bitPos := 0, dominantRun := run, breakWait := none,
                breakDrive := if s.line.breakWait = none then s.line.breakDrive.map fun n => n + 1
                  else s.line.breakDrive }
            (∀ h, s.line.shift = some h → s.clock.line = { ended with
              shift := some { h with
                bits := h.bits ++ [read],
                noise := h.noise || (counted.samples.contains .dominant
                  && counted.samples.contains .recessive) } })
            ∧ (s.line.shift = none →
              (s.line.state = .window →
                let time := s.line.windowTimer + 1
                s.clock.line = { ended with
                  windowTimer := time,
                  vetoSeen := s.line.vetoSeen
                    || decide (12 ≤ min run time ∧ time - min run time < 6) })
              ∧ (s.line.state = .settling ∨ s.line.state = .breaking ∨ s.line.state = .fault →
                s.clock.line = { ended with
                  recessiveCount := if read = .recessive then s.line.recessiveCount + 1 else 0 })
              ∧ (s.line.state = .receiving → s.clock.line = { ended with
                  recessiveCount := if read = .recessive then s.line.recessiveCount + 1
                    else s.line.recessiveCount })
              ∧ (s.line.state = .idle ∨ s.line.state = .contend ∨ s.line.state = .sending →
                s.clock.line = ended))))
    ∧ (
    ∀ (d f : Nat) (l : LineIf), f ≤ 7 → l.acc = 0 →
      let bits := (List.range 12).map fun n => Nat.repeat (LineIf.beginBit d f) n l
      ((bits.drop 1).map LineIf.bitLen).sum = 11 * d + 11 * f / 8
        ∧ ∀ b ∈ bits, b.acc ≤ 7)

/-- START_EDGE on a waiting edge, where no own start is aligned with it, begins the start bit, with
the accumulator at 0 before its F is added, which is the model's choice (log entry 24); on a start
bit that read dominant the character has begun and IDLE and SETTLING become RECEIVING; on one that
read recessive the shift stage is empty again, the state stays, and the bit counts as a recessive
bit time in SETTLING and RECEIVING. That the start bit is judged at its end, and no edge looked for
until then, is log entry 43 (DESIGN CHOICE). In SETTLING with a frame offered, a start edge in the
last D/4 periods of the bit time that would bring the recessive count to the settle length starts
the own attempt: CONTEND with the own start bit timed from the period of the edge, the oldest READY
entry of the highest class ACTIVE with its frame filled with the own sender, the tag and TSEQ of
R72, its length and its check, and the attempt counter kept only for the entry that was last ACTIVE.
Nothing else changes, but that no report of a start waits. The model's choices in it: the recessive
count and the period alone tell that bit time, whatever its samples are so far (log entry 35), the
entry is chosen in the same event, so that none can be removed between the start bit and its report
(log entry 41, a DESIGN CHOICE), and the accumulator is at 0 before the start bit's F is added (log
entry 24). (R51, R49, R54, R55, R56, R71, R72, R77, R42) -/
def Obligations.StartEdges : Prop :=
  (
    ∀ s : State,
      (s.line.shift = none → s.line.edge = true →
        (s.line.state = .idle ∨ s.line.state = .receiving
          ∨ s.line.state = .settling ∧ (s.offered = false
            ∨ s.line.recessiveCount + 1 ≠ s.line.settleLen
            ∨ s.line.bitPos < s.line.bitLen - s.port.store.d / 4)) → s.port.store.f ≤ 7 →
        exec .startEdge s = .next { s with line := { s.line with
          acc := s.port.store.f, bitPos := 1, bitLen := s.port.store.d, samples := [], edge := false,
          shift := some ⟨[], false, false⟩ } })
      ∧ (∀ noise, s.line.shift = some ⟨[.dominant], noise, false⟩ →
        (s.line.state = .idle ∨ s.line.state = .settling ∨ s.line.state = .receiving) →
        exec .startEdge s = .next { s with line := { s.line with
          state := .receiving, recessiveCount := 0, shift := some ⟨[.dominant], noise, true⟩ } })
      ∧ (∀ noise, s.line.shift = some ⟨[.recessive], noise, false⟩ →
        (s.line.state = .settling ∨ s.line.state = .receiving →
          exec .startEdge s = .next { s with line := { s.line with
            recessiveCount := s.line.recessiveCount + 1, shift := none } })
        ∧ (s.line.state = .idle →
          exec .startEdge s = .next { s with line := { s.line with shift := none } })))
    ∧ (
    ∀ (before : List TxEntry) (e : TxEntry) (after : List TxEntry) (s : State),
      s.line.state = .settling → s.offered = true → s.line.shift = none →
      s.line.edge = true → s.line.recessiveCount + 1 = s.line.settleLen → s.line.bitPos ≠ 0 →
      s.line.bitLen - s.port.store.d / 4 ≤ s.line.bitPos → s.port.store.f ≤ 7 →
      s.tx.queue = before ++ e :: after →
      (∀ x ∈ before, e.kind.rank < x.kind.rank) → (∀ x ∈ after, e.kind.rank ≤ x.kind.rank) →
      exec .startEdge s = .next
        { s with
          line := { s.line with
            state := .contend, acc := s.port.store.f, bitPos := 1,
            bitLen := s.port.store.d, samples := [], edge := false, recessiveCount := 0, txChar := 0,
            shift := some ⟨[], false, true⟩ },
          tx := { s.tx with
            queue := before.map (fun x => { x with lastActive := false })
              ++ { e with state := .active, lastActive := true }
              :: after.map (fun x => { x with lastActive := false }),
            attempts := if e.lastActive then s.tx.attempts else 0,
            frame :=
              if e.kind = .announce ∨ e.kind = .joinAsk
              then frameChars e.kind s.port.station s.ctrl.askedTag 0 e.body
              else frameChars e.kind s.port.station s.table.tag
                (s.table.tseq + (if s.ctrl.failed = true then s.ctrl.catchupCount
                  else BitVec.ofNat 16 s.ctrl.pendingApply.length)) e.body,
            startReport := false } })

/-- The owed frames of a state stand in the precedence of R67, each with the kind, owner and body of
its rule. The gate admits each kind in the station states of R68, and the guards are those of R69.
Handing out goes by them: with fewer than 8 entries the first owed frame that gate and guards admit
is appended as a READY entry, is owed no more, and the handing out goes on from there; with 8
entries, or with no such frame, nothing changes. (That every step leaves no frame owed that could be
queued is another statement.) In IDLE with the inbox and the handoff slot empty and no entry ACTIVE,
ATTEMPT_START makes ACTIVE the oldest READY entry of the highest class, fills its frame with the own
sender, the tag and TSEQ of R72, its length and its check, keeps the attempt counter only for the
entry that was last ACTIVE, and drives the start bit in CONTEND with the accumulator at 0. Nothing
else changes, but that the report of the start has been taken. The own expected TSEQ is the
replica's TSEQ plus the number of frames in the pending-apply queue, or the catch-up count after a
failure. A frame is offered exactly when an entry is READY, none is ACTIVE, and the inbox and the
handoff slot are empty. In IDLE, when the line became idle with a frame offered and the queue has
lost its last entry since, ATTEMPT_START drives the start bit and a break of 16 bit times after it:
BREAK, a break report, and the queue and the attempt counter unchanged (which state remembers the
start is log entry 5, and that the start bit keeps the line dominant to its end is log entry 25,
both DEDUCED). With no entry and no such start ATTEMPT_START changes nothing: the offer has been
withdrawn. (R67, R68, R69, R56, R70, R71, R72, R77, R42, R128, R57) -/
def Obligations.AttemptStarts : Prop :=
  (
    ∀ s : State,
      s.owedFrames = (if s.ctrl.owed.leave then [.leave] else [])
          ++ (match s.ctrl.evictInHand with
            | some ⟨x, .owed⟩ => [.evict x]
            | _ => [])
          ++ (match s.ctrl.donor with
            | .admitting j => if s.ctrl.owed.admission then [.admission j] else []
            | _ => [])
          ++ (match s.ctrl.donor with
            | .donating j => if s.ctrl.owed.snapshot then [.snapshot j] else []
            | _ => [])
          ++ (if s.ctrl.owed.presence then [.presence] else [])
          ++ ((List.finRange 32).filter fun k => s.records[k].owedDrop).map .drop
          ++ (if s.ctrl.owed.announce then [.announce] else [])
          ++ (if s.ctrl.owed.joinAsk then [.joinAsk] else [])
      ∧ (∀ o : OwedFrame, (o.kind, o.owner, o.body s) = (match o with
          | .leave => (.leave, .controller, [])
          | .evict x => (.evict, .controller, [byteOf x.val])
          | .admission j => (.admission, .controller, [byteOf j.val])
          | .snapshot j => (.snapshot, .controller,
              byteOf j.val :: byteOf s.ctrl.snapshot.part :: byteOf s.ctrl.snapshot.partCount
                :: s.ctrl.snapshot.tseq.extractLsb' 0 8 :: s.ctrl.snapshot.tseq.extractLsb' 8 8
                :: (s.ctrl.snapshot.image.drop (19 * (s.ctrl.snapshot.part - 1))).take 19)
          | .presence => (.presence, .controller, [])
          | .drop k => (.drop, .claimUnit k, [byteOf s.records[k].resource.val, byteOf k.val])
          | .announce => (.announce, .controller, [byteOf s.port.store.p, byteOf s.port.store.k])
          | .joinAsk => (.joinAsk, .controller, [])))
      ∧ (∀ st : StationState,
          (admits st .announce = true ↔ st = .founding)
          ∧ (admits st .joinAsk = true ↔ st = .asking)
          ∧ (∀ kind, kind = .presence ∨ kind = .leave →
              (admits st kind = true ↔ st = .catchup ∨ st = .member ∨ st = .leaving))
          ∧ (∀ kind, kind = .evict ∨ kind = .admission ∨ kind = .snapshot ∨ kind = .drop →
              (admits st kind = true ↔ st = .member ∨ st = .leaving))
          ∧ (admits st .claim = true ↔ st = .member))
      ∧ (∀ (queue : List TxEntry) (kind : FrameKind),
          (∀ k, guardMet queue kind (.claimUnit k) = true ↔ ∀ e ∈ queue, e.owner ≠ .claimUnit k)
          ∧ (guardMet queue kind .controller = true ↔
              (kind = .evict → ∀ e ∈ queue, e.kind ≠ .evict)
              ∧ (kind = .presence → ∀ e ∈ queue, e.kind ≠ .presence)))
      ∧ ((8 ≤ s.tx.queue.length ∨ ∀ o ∈ s.owedFrames, admits s.ctrl.station o.kind = true →
            guardMet s.tx.queue o.kind o.owner = false) → s.handOut = s)
      ∧ ∀ before o after, s.owedFrames = before ++ o :: after → s.tx.queue.length < 8 →
          (∀ x ∈ before, admits s.ctrl.station x.kind = true →
            guardMet s.tx.queue x.kind x.owner = false) →
          admits s.ctrl.station o.kind = true → guardMet s.tx.queue o.kind o.owner = true →
          ∃ u : State, s.handOut = u.handOut
            ∧ u = { s with
                    tx := { s.tx with queue := s.tx.queue ++
                      [{ kind := o.kind, owner := o.owner, body := o.body s, state := .ready,
                         cancel := false, lastActive := false }] },
                    ctrl := { s.ctrl with owed := u.ctrl.owed, evictInHand := u.ctrl.evictInHand },
                    records := u.records }
            ∧ u.owedFrames = before ++ after
            ∧ u.ctrl.evictInHand.map EvictInHand.target
                = s.ctrl.evictInHand.map EvictInHand.target
            ∧ ∀ k : RecordIndex, u.records[k] =
                if o = .drop k then { s.records[k] with owedDrop := false, mark := .drop }
                else s.records[k])
    ∧ (
    (∀ s : State, s.offered = true ↔ (∃ e ∈ s.tx.queue, e.state = .ready)
        ∧ (∀ e ∈ s.tx.queue, e.state ≠ .active) ∧ s.rx.inbox = [] ∧ s.rx.handoff = none)
      ∧ ∀ (before : List TxEntry) (e : TxEntry) (after : List TxEntry) (s : State),
      s.line.state = .idle → s.line.shift = none → s.rx.inbox = [] → s.rx.handoff = none →
      s.tx.queue = before ++ e :: after → (∀ x ∈ s.tx.queue, x.state = .ready) →
      (∀ x ∈ before, e.kind.rank < x.kind.rank) → (∀ x ∈ after, e.kind.rank ≤ x.kind.rank) →
      exec .attemptStart s = .next
        { s with
          line := { s.line with state := .contend, acc := 0, bitPos := 0, edge := false, txChar := 0,
                                recessiveCount := 0, shift := some ⟨[], false, true⟩ },
          tx := { s.tx with
            queue := before.map (fun x => { x with lastActive := false })
              ++ { e with state := .active, lastActive := true }
              :: after.map (fun x => { x with lastActive := false }),
            attempts := if e.lastActive then s.tx.attempts else 0,
            frame :=
              if e.kind = .announce ∨ e.kind = .joinAsk
              then frameChars e.kind s.port.station s.ctrl.askedTag 0 e.body
              else frameChars e.kind s.port.station s.table.tag
                (s.table.tseq + (if s.ctrl.failed = true then s.ctrl.catchupCount
                  else BitVec.ofNat 16 s.ctrl.pendingApply.length)) e.body,
            startReport := false } })
    ∧ (
    ∀ s : State, s.line.state = .idle → s.line.shift = none → s.tx.queue = [] →
      (s.tx.startReport = true → exec .attemptStart s = .next
        { s with
          line := { s.line with
            state := .breaking, acc := 0, bitPos := 0, edge := false, shift := none, framePos := 0,
            frameLen := none, recessiveCount := 0, stream := s.line.stream ++ [.lineBreak],
            breakDrive := some 0, breakWait := some .dominant },
          tx := { s.tx with startReport := false } })
      ∧ (s.tx.startReport = false → exec .attemptStart s = .next s))

/-- In RECEIVING, at the end of a stop bit with the dominant run below 12: the character goes to the
stream with its value, marker and marks, or, with 4 in the FIFO and one waiting, is lost to the
overrun mark of the waiting one; in either case a recessive marker makes the frame position 1, a
dominant one adds 1 to a frame in progress (keeping character 6 as the length) and leaves 0 for a
stray; where that ends no frame the shift stage is empty and the gap count is 0. Nothing else
changes. In RECEIVING or SENDING, at the end of a stop bit without a difference from what was sent
and with the dominant run below 12, a dominant-marker character that brings the frame position to 8
+ L opens the window: WINDOW with its timer at 0 and no veto driven or seen, the opening in the
stream after the character or, where that is lost because 5 are held, after what stood there, the
last of them marked with the overrun, the frame position 0, and the window the own one exactly when
the state was SENDING. The overrun mark is set on the last character of the stream, which is the
waiting one when 5 are held, and every other item of the stream is unchanged; a further completed
character then does not enter the stream. (R52, R53, R54, R84, R58, R59, R60) -/
def Obligations.CharactersComplete : Prop :=
  (
    ∀ (h : Shift) (s : State), s.line.state = .receiving → s.line.shift = some h →
      h.bits.length = 11 → s.line.dominantRun < 12 →
      let c : RxChar := { value := dataValue h.bits, marker := (h.bits[9]?).getD .recessive,
                          noise := h.noise, framing := decide (h.bits[10]? = some .dominant),
                          overrun := false }
      let position := match c.marker with
        | .recessive => 1
        | .dominant => if s.line.framePos = 0 then 0 else s.line.framePos + 1
      let length := match c.marker with
        | .recessive => none
        | .dominant => if s.line.framePos = 5 then some c.value else s.line.frameLen
      (∀ l, length = some l → position ≠ (if l.toNat ≤ 24 then 8 + l.toNat else 8)) →
      exec .characterComplete s = .next { s with line := { s.line with
        shift := none, recessiveCount := 0, framePos := position, frameLen := length,
        stream := if s.line.charCount < 5 then s.line.stream ++ [.char c]
          else markOverrun s.line.stream } })
    ∧ (
    ∀ (h : Shift) (l : Byte) (s : State),
      (s.line.state = .receiving ∨ s.line.state = .sending ∧ s.mismatchDue = false) →
      s.line.shift = some h → h.bits.length = 11 → h.bits[9]? = some .dominant →
      s.line.dominantRun < 12 → s.line.framePos ≠ 0 →
      s.line.framePos ≠ 5 → s.line.frameLen = some l →
      s.line.framePos + 1 = (if l.toNat ≤ 24 then 8 + l.toNat else 8) →
      exec .characterComplete s = .next { s with line := { s.line with
        state := .window, shift := none, framePos := 0, frameLen := none, recessiveCount := 0,
        windowTimer := 0, vetoDriving := false, vetoSeen := false,
        windowOwn := decide (s.line.state = .sending),
        stream := (if s.line.charCount < 5 then s.line.stream ++
            [.char { value := dataValue h.bits, marker := .dominant, noise := h.noise,
                     framing := decide (h.bits[10]? = some .dominant), overrun := false }]
          else markOverrun s.line.stream) ++ [.opening] } })
    ∧ (
    ∀ (c waiting : RxChar) (before after : List StreamItem), (∀ x ∈ after, x.isChar = false) →
      markOverrun (before ++ .char waiting :: after)
          = before ++ .char { waiting with overrun := true } :: after
        ∧ ((before.filter StreamItem.isChar).length = 4 →
          pushChar c (before ++ .char waiting :: after)
            = before ++ .char { waiting with overrun := true } :: after))

/-- For any two kinds of different classes, at the first data bit in which their kind characters
differ the kind of the higher class sends dominant and the other recessive; so the other loses
arbitration there. In CONTEND, at the end of the stop bit of character 2 with no difference and the
dominant run below 12, the state becomes SENDING and the next start bit is driven with the
accumulator at 0; after character 1 the state stays CONTEND. In CONTEND or SENDING, at the end of
the stop bit of a character that does not end the frame, with no difference and the dominant run
below 12: the character enters the stream with its value, marker and marks, or, with 4 in the FIFO
and one waiting, is lost to the overrun mark of the waiting one; the frame position and the length
follow R53; the number of the character sent rises by 1, and the start bit of the next one is
driven, dominant, with the accumulator at 0. SENDING stays SENDING, and in CONTEND character 2 leads
to SENDING. Nothing else changes. (R37, R38, R57, R49, R52, R53, R58, R84) -/
def Obligations.ArbitrationWonByRank : Prop :=
  (
    ∀ a b : FrameKind, a.rank < b.rank → ∃ i : Nat, 1 ≤ i ∧ i ≤ 8
      ∧ charBit a.char true i = .dominant ∧ charBit b.char true i = .recessive
      ∧ ∀ j, j < i → charBit a.char true j = charBit b.char true j)
    ∧ (
    ∀ (h : Shift) (s : State), s.line.state = .contend → s.line.shift = some h →
      h.bits.length = 11 → s.line.dominantRun < 12 → s.lossDue = false → s.mismatchDue = false →
      s.line.framePos = 0 ∧ h.bits[9]? = some .recessive ∨ s.line.framePos = 1 →
      ∃ t, exec .characterComplete s = .next t
        ∧ t = { s with line := t.line } ∧ t.line.acc = 0 ∧ t.line.txChar = s.line.txChar + 1
        ∧ t.line.shift = some ⟨[], false, true⟩
        ∧ t.line.state = (if s.line.txChar = 1 then .sending else .contend))
    ∧ (
    ∀ (h : Shift) (s : State),
      (s.line.state = .contend ∧ s.lossDue = false ∨ s.line.state = .sending) →
      s.mismatchDue = false → s.line.shift = some h → h.bits.length = 11 → s.line.dominantRun < 12 →
      let c : RxChar := { value := dataValue h.bits, marker := (h.bits[9]?).getD .recessive,
                          noise := h.noise, framing := decide (h.bits[10]? = some .dominant),
                          overrun := false }
      let position := match c.marker with
        | .recessive => 1
        | .dominant => if s.line.framePos = 0 then 0 else s.line.framePos + 1
      let length := match c.marker with
        | .recessive => none
        | .dominant => if s.line.framePos = 5 then some c.value else s.line.frameLen
      (∀ l, length = some l → position ≠ (if l.toNat ≤ 24 then 8 + l.toNat else 8)) →
      ∃ t, exec .characterComplete s = .next t
        ∧ t = { s with line := { s.line with
            state := if s.line.state = .contend ∧ s.line.txChar = 1 then .sending else s.line.state,
            shift := some ⟨[], false, true⟩, acc := 0, txChar := s.line.txChar + 1,
            framePos := position, frameLen := length,
            stream := if s.line.charCount < 5 then s.line.stream ++ [.char c]
              else markOverrun s.line.stream } }
        ∧ ∀ x, s.line.breakDrive = none → s.line.vetoDriving = false →
            s.tx.frame[s.line.txChar + 1]? = some x → t.ownDrive = .dominant)

/-- In RECEIVING with 4 recessive bit times counted and no start edge: with a frame in progress it
is truncated (a truncation report, frame position 0, settle length 33), and otherwise the settle
length is 11 with no report; the line interface is in SETTLING with the count at 4. In SETTLING with
no start edge, a recessive count that has reached the settle length takes the line interface to
IDLE, and with a frame offered then the report of a start waits for the transmitter (log entry 5,
DEDUCED); a smaller count leaves the state as it is (log entry 1, a DESIGN CHOICE). In BREAK with no
own break being driven and a recessive bit time counted, BREAK_END goes to SETTLING with settle
length 11 and count 1. (The wait for the own drive is log entry 16.) VETO_DRIVE_END releases the
line when the window timer has reached 16, and BREAK_DRIVE_END when 16 bit times of the break have
been driven; below 16 they change nothing (log entry 1, a DESIGN CHOICE). (R54, R55, R53, R56, R61,
R58, R59) -/
def Obligations.CountsEndGapsSettlingBreaksAndDrives : Prop :=
  (
    ∀ s : State, s.line.state = .receiving → s.line.shift = none → s.line.edge = false →
      4 ≤ s.line.recessiveCount →
      (s.line.framePos ≠ 0 → exec .gapExpiry s = .next { s with line := { s.line with
        state := .settling, settleLen := 33, recessiveCount := 4, framePos := 0, frameLen := none,
        stream := s.line.stream ++ [.truncation] } })
      ∧ (s.line.framePos = 0 → exec .gapExpiry s = .next { s with line := { s.line with
        state := .settling, settleLen := 11, recessiveCount := 4 } }))
    ∧ (
    ∀ s : State, s.line.state = .settling → s.line.shift = none → s.line.edge = false →
      (s.line.settleLen ≤ s.line.recessiveCount → exec .lineIdle s = .next
        { s with line := { s.line with state := .idle, recessiveCount := 0 },
                 tx := { s.tx with startReport := s.offered } })
      ∧ (s.line.recessiveCount < s.line.settleLen → exec .lineIdle s = .next s))
    ∧ (
    ∀ s : State, s.line.state = .breaking → s.line.breakDrive = none → 1 ≤ s.line.recessiveCount →
      exec .breakEnd s = .next { s with line := { s.line with
        state := .settling, settleLen := 11, recessiveCount := 1 } })
    ∧ (
    ∀ s : State,
      (s.line.vetoDriving = true → 16 ≤ s.line.windowTimer →
        exec .vetoDriveEnd s = .next { s with line := { s.line with vetoDriving := false } })
      ∧ (s.line.windowTimer < 16 → exec .vetoDriveEnd s = .next s)
      ∧ (∀ n, s.line.breakDrive = some n → 16 ≤ n → exec .breakDriveEnd s = .next
          { s with line := { s.line with breakDrive := none, breakWait := none } })
      ∧ (∀ n, s.line.breakDrive = some n → n < 16 → exec .breakDriveEnd s = .next s))

/-- In CONTEND with a bit sent recessive and read dominant, ARBITRATION_LOSS takes the line
interface to RECEIVING with the character kept, and the ACTIVE entry is READY in its place with the
attempt counter unchanged, or, with a cancel mark, is removed with WITHDRAWN to its owner. The place
freed goes to the owed frames by R67 (State.handOut, of which O22 says what it does). At the end of
a bit that SENDING or CONTEND sent dominant and read recessive, or SENDING sent recessive and read
dominant, READBACK_MISMATCH goes to BREAK with 16 bit times of break to drive from the next bit, a
break report, and a failed attempt: below the limit the counter rises by 1, and the unmarked entry
is READY in its place or one with a cancel mark is removed with WITHDRAWN to its owner, its place
handed out likewise; at the sixteenth failure the station detaches with ATTEMPT-LIMIT. (R57, R73,
R79, R67, R76, R58, R74, R77) -/
def Obligations.ArbitrationLossAndMismatch : Prop :=
  (
    ∀ (h : Shift) (bits : List Level) (before : List TxEntry) (e : TxEntry) (after : List TxEntry)
        (s : State),
      s.line.state = .contend → s.line.shift = some h → h.bits = bits ++ [.dominant] →
      s.frameLevel bits.length = .recessive → s.Attempt before e after →
      (e.cancel = false → exec .arbitrationLoss s = .next
        { s with line := { s.line with state := .receiving, recessiveCount := 0 },
                 tx := { s.tx with queue := before ++ { e with state := .ready } :: after,
                                   frame := [] } })
      ∧ (e.cancel = true → exec .arbitrationLoss s = .next (State.handOut
        { s with line := { s.line with state := .receiving, recessiveCount := 0 },
                 tx := { s.tx with queue := before ++ after, frame := [],
                                   reports := s.tx.reports ++ [.withdrawn e.kind e.owner] } })))
    ∧ (
    ∀ (h : Shift) (bits : List Level) (read : Level) (before : List TxEntry) (e : TxEntry)
        (after : List TxEntry) (s : State),
      s.line.shift = some h → h.bits = bits ++ [read] → s.line.bitPos = 0 →
      (s.line.state = .sending ∧ s.frameLevel bits.length ≠ read
        ∨ s.line.state = .contend ∧ s.frameLevel bits.length = .dominant ∧ read = .recessive) →
      s.Attempt before e after →
      let broken := { s.line with
        state := .breaking, shift := none, edge := false, framePos := 0, frameLen := none,
        recessiveCount := 0, stream := s.line.stream ++ [.lineBreak], breakDrive := some 0,
        breakWait := none }
      (e.cancel = false → s.tx.attempts < 15 → exec .readbackMismatch s = .next
        { s with
          line := broken,
          tx := { s.tx with queue := before ++ { e with state := .ready } :: after,
                            attempts := s.tx.attempts + 1, frame := [] } })
      ∧ (e.cancel = true → s.tx.attempts < 15 → exec .readbackMismatch s = .next (State.handOut
        { s with
          line := broken,
          tx := { s.tx with queue := before ++ after, attempts := s.tx.attempts + 1, frame := [],
                            reports := s.tx.reports ++ [.withdrawn e.kind e.owner] } }))
      ∧ (15 ≤ s.tx.attempts → s.CanDetach → ∃ t, exec .readbackMismatch s = .next t
        ∧ t.line = broken ∧ Detached .attemptLimit s t))

/-- In WINDOW with the timer at 22, for a frame that is not the own attempt, WINDOW_CLOSE puts CLEAN
or VETOED into the stream by whether a veto was seen, and goes to SETTLING (settle length 11, count
0) on a recessive line or to BREAK without a second report on a dominant one. Nothing else changes.
In the own WINDOW with the timer at 22: CLEAN removes the ACTIVE entry, sets the attempt counter to
0 and reports ACCEPTED to its owner; VETOED below the limit raises the counter and makes the
unmarked entry READY in its place, or removes a marked one with WITHDRAWN; the place of a removed
entry goes to the owed frames by R67 (State.handOut, of which O22 says what it does); at the
sixteenth failure the station detaches with ATTEMPT-LIMIT, whatever the mark. With no ACTIVE entry,
which a flush has removed, the transmitter ignores the result and nothing changes but the line
interface. That the transmitter takes the result in the event of the close, before any report of the
frame's application, is log entry 44 (DEDUCED). In every case the result enters the stream, for the
receiver, and the line interface goes to SETTLING (settle length 11, count 0) on a recessive line or
to BREAK on a dominant one, no window being the own one any more. For a run that is no longer than
the window has lasted: the window sees a veto after a bit time exactly when the last 12 or more bit
times were dominant and the run began within the first 6. (A run in progress at the opening counts
from the opening: log entry 13.) (R60, R75, R76, R77, R79, R80, R67) -/
def Obligations.WindowsClose : Prop :=
  (
    ∀ s : State, s.line.state = .window → 22 ≤ s.line.windowTimer → s.line.windowOwn = false →
      (s.line.dominantRun = 0 → exec .windowClose s = .next { s with line := { s.line with
        state := .settling, settleLen := 11, recessiveCount := 0, vetoDriving := false,
        stream := s.line.stream ++ [.result (!s.line.vetoSeen)] } })
      ∧ (s.line.dominantRun ≠ 0 → exec .windowClose s = .next { s with line := { s.line with
        state := .breaking, recessiveCount := 0, vetoDriving := false,
        stream := s.line.stream ++ [.result (!s.line.vetoSeen)] } }))
    ∧ (
    ∀ s : State, s.line.state = .window → 22 ≤ s.line.windowTimer → s.line.windowOwn = true →
      let closed : LineIf := { s.line with
        state := if s.line.dominantRun = 0 then .settling else .breaking,
        settleLen := if s.line.dominantRun = 0 then 11 else s.line.settleLen,
        recessiveCount := 0, vetoDriving := false, windowOwn := false,
        stream := s.line.stream ++ [.result (!s.line.vetoSeen)] }
      ((∀ e ∈ s.tx.queue, e.state = .ready) →
        exec .windowClose s = .next { s with line := closed })
      ∧ ∀ (before : List TxEntry) (e : TxEntry) (after : List TxEntry), s.Attempt before e after →
        (s.line.vetoSeen = false → exec .windowClose s = .next (State.handOut
          { s with line := closed,
                   tx := { s.tx with queue := before ++ after, attempts := 0, frame := [],
                                     reports := s.tx.reports ++ [.accepted e.kind e.owner] } }))
        ∧ (s.line.vetoSeen = true → e.cancel = false → s.tx.attempts < 15 →
          exec .windowClose s = .next
            { s with line := closed,
                     tx := { s.tx with queue := before ++ { e with state := .ready } :: after,
                                       attempts := s.tx.attempts + 1, frame := [] } })
        ∧ (s.line.vetoSeen = true → e.cancel = true → s.tx.attempts < 15 →
          exec .windowClose s = .next (State.handOut
            { s with line := closed,
                     tx := { s.tx with queue := before ++ after, attempts := s.tx.attempts + 1,
                                       frame := [],
                                       reports := s.tx.reports ++ [.withdrawn e.kind e.owner] } }))
        ∧ (s.line.vetoSeen = true → 15 ≤ s.tx.attempts → s.CanDetach →
          ∃ t, exec .windowClose s = .next t ∧ Detached .attemptLimit s t ∧ t.line = closed))
    ∧ (
    ∀ time run : Nat, run ≤ time →
      (vetoIn time run = true ↔ 12 ≤ run ∧ time - run < 6))

/-- In RECEIVING, IDLE or SETTLING with the run at 12 or more, BREAK discards the character being
sampled, sets the frame position to 0, puts a break report into the stream and goes to BREAK; in
CONTEND and SENDING, with no difference to deal with, it does the same and counts a failed attempt
of the own frame, which below the limit is READY again in its place or, with a cancel mark, is
removed with WITHDRAWN, its place gone to the owed frames by R67 (State.handOut, of which O22 says
what it does), and at the sixteenth failure detaches the station with ATTEMPT-LIMIT. Nothing further
is driven. A complete character that waits in the shift stage stays in the stream before the break
report, which is the model's choice (log entry 21). The character being sampled is discarded, and
completes no more, on its stop bit too (log entry 42, DEDUCED). (R61, R74, R76, R77, R79, R67) -/
def Obligations.BreakTakenAtTwelve : Prop :=
  ∀ s : State, 12 ≤ s.line.dominantRun →
    let broken := { s.line with
      state := .breaking, shift := none, edge := false, framePos := 0, frameLen := none,
      recessiveCount := 0, stream := s.line.stream ++ [.lineBreak] }
    (s.line.state = .receiving ∨ s.line.state = .idle ∨ s.line.state = .settling →
      exec .breakTaken s = .next { s with line := broken })
    ∧ ∀ before e after, s.line.state = .contend ∨ s.line.state = .sending → s.lossDue = false →
      s.mismatchDue = false → s.Attempt before e after →
      (e.cancel = false → s.tx.attempts < 15 → exec .breakTaken s = .next
        { s with
          line := broken,
          tx := { s.tx with queue := before ++ { e with state := .ready } :: after,
                            attempts := s.tx.attempts + 1, frame := [] } })
      ∧ (e.cancel = true → s.tx.attempts < 15 → exec .breakTaken s = .next (State.handOut
        { s with
          line := broken,
          tx := { s.tx with queue := before ++ after, attempts := s.tx.attempts + 1, frame := [],
                            reports := s.tx.reports ++ [.withdrawn e.kind e.owner] } }))
      ∧ (15 ≤ s.tx.attempts → s.CanDetach → ∃ t, exec .breakTaken s = .next t
        ∧ t.line = broken ∧ Detached .attemptLimit s t)

/-- In BREAK or WINDOW with the run at 1024, LINE_FAULT goes to FAULT with nothing driven and no
character in progress, sets the line-fault flag, freezes every running silence timer and, in
LISTENING, a running listen timer, posts LINE-FAULT with detail 0, and leaves every other timer, the
transmitter, the receiver and the replica as they are. That BREAK and WINDOW are the states in which
it is taken is the model's choice (log entry 17). In FAULT with 22 recessive bit times counted,
LINE_RECOVERY goes to IDLE, clears the line-fault flag, resumes every frozen silence timer and the
listen timer and posts LINE-RESTORED; with a frame offered then, as in FOUNDING and ASKING it can
be, the report of a start waits (log entry 5); in CATCHUP, MEMBER and LEAVING the station then
detaches with LINE-FAULT, its notices after LINE-RESTORED, and no start is left. (R62, R135, R172,
R136, R145) -/
def Obligations.LineFaultAndRecovery : Prop :=
  (
    ∀ s : State, (s.line.state = .breaking ∨ s.line.state = .window) → 1024 ≤ s.line.dominantRun →
      ∃ t, exec .lineFault s = .next t
        ∧ t = { s with line := t.line, ctrl := t.ctrl, notices := s.notices.post .lineFault 0 }
        ∧ t.line = { s.line with
            state := .fault, shift := none, edge := false, framePos := 0, frameLen := none,
            recessiveCount := 0, vetoDriving := false, breakDrive := none, breakWait := none }
        ∧ t.ownDrive = .recessive
        ∧ t.ctrl = { s.ctrl with lineFault := true, listen := t.ctrl.listen,
                                 silence := t.ctrl.silence }
        ∧ (∀ n, s.ctrl.station = .listening → s.ctrl.listen = .running n →
            t.ctrl.listen = .frozen n)
        ∧ (s.ctrl.station ≠ .listening → t.ctrl.listen = s.ctrl.listen)
        ∧ ∀ x : Station, (∀ n, s.ctrl.silence[x] = some (.running n) →
              t.ctrl.silence[x] = some (.frozen n))
            ∧ ((∀ n, s.ctrl.silence[x] ≠ some (.running n)) →
              t.ctrl.silence[x] = s.ctrl.silence[x]))
    ∧ (
    ∀ s : State, s.line.state = .fault → 22 ≤ s.line.recessiveCount →
      (s.ctrl.station ≠ .catchup → s.ctrl.station ≠ .member → s.ctrl.station ≠ .leaving →
        ∃ t, exec .lineRecovery s = .next t
          ∧ t = { s with line := { s.line with state := .idle, recessiveCount := 0 },
                         tx := { s.tx with startReport := s.offered }, ctrl := t.ctrl,
                         notices := s.notices.post .lineRestored 0 }
          ∧ t.ctrl = { s.ctrl with lineFault := false, listen := t.ctrl.listen,
                                   silence := t.ctrl.silence }
          ∧ (∀ n, s.ctrl.listen = .frozen n → t.ctrl.listen = .running n)
          ∧ ∀ (x : Station) (n : Nat), s.ctrl.silence[x] = some (.frozen n) →
              t.ctrl.silence[x] = some (.running n))
      ∧ (s.ctrl.station = .catchup ∨ s.ctrl.station = .member ∨ s.ctrl.station = .leaving →
        ∃ t, exec .lineRecovery s = .next t ∧ t.line.state = .idle
          ∧ Detached .lineFault
              { s with ctrl := { s.ctrl with lineFault := false },
                       notices := s.notices.post .lineRestored 0 } t))

/-- TAKE_CHARACTER takes the head character: a recessive marker begins a frame with it; a dominant
one is appended to a frame in progress below its length and below 32 characters, keeping the overrun
mark, and is discarded with no frame. One that comes past the frame's last character sets the
overrun flag, and is appended, where nothing reads it, only below 32 characters (that it is kept
there is the model's choice, log entry 22). TAKE_TRUNCATION and TAKE_BREAK take their report and
leave no frame in progress, with inbox, handoff slot and own-veto counter unchanged. (R84, R85, R86)
-/
def Obligations.ItemsTakenFromTheStream : Prop :=
  ∀ (rest : List StreamItem) (s : State),
    (∀ c : RxChar, s.line.stream = .char c :: rest → c.marker = .recessive →
      exec .takeCharacter s = .next
        { s with line := { s.line with stream := rest },
                 rx := { s.rx with assembly := some { chars := [c], overrun := c.overrun } } })
    ∧ (∀ (c : RxChar) (a : Assembly), s.line.stream = .char c :: rest → c.marker = .dominant →
      s.rx.assembly = some a → a.chars.length < 32 →
      (∀ l, a.length = some l →
        a.chars.length < (if l.toNat ≤ 24 then 8 + l.toNat else 8)) →
      exec .takeCharacter s = .next
        { s with line := { s.line with stream := rest },
                 rx := { s.rx with
                   assembly :=
                     some { chars := a.chars ++ [c], overrun := a.overrun || c.overrun } } })
    ∧ (∀ (c : RxChar) (a : Assembly) (l : Byte), s.line.stream = .char c :: rest →
      c.marker = .dominant → s.rx.assembly = some a → a.length = some l →
      (if l.toNat ≤ 24 then 8 + l.toNat else 8) ≤ a.chars.length →
      exec .takeCharacter s = .next
        { s with line := { s.line with stream := rest },
                 rx := { s.rx with
                   assembly :=
                     some { chars := if a.chars.length < 32 then a.chars ++ [c] else a.chars,
                            overrun := true } } })
    ∧ (∀ c : RxChar, s.line.stream = .char c :: rest → c.marker = .dominant →
      s.rx.assembly = none →
      exec .takeCharacter s = .next { s with line := { s.line with stream := rest } })
    ∧ (s.line.stream = .truncation :: rest → exec .takeTruncation s = .next
        { s with line := { s.line with stream := rest }, rx := { s.rx with assembly := none } })
    ∧ (s.line.stream = .lineBreak :: rest → exec .takeBreak s = .next
        { s with line := { s.line with stream := rest }, rx := { s.rx with assembly := none } })

/-- The decision at an opening is a veto exactly when the station is in ASKING, CATCHUP, MEMBER or
LEAVING and some cause of R89 holds; it is a mismatch veto exactly when cause 6 holds alone. (R88,
R89, R90, R36) -/
def Obligations.VetoCauses : Prop :=
  ∀ (a : Assembly) (f : Frame) (s : State),
    let participates := s.ctrl.station = .asking ∨ s.ctrl.station = .catchup
      ∨ s.ctrl.station = .member ∨ s.ctrl.station = .leaving
    let failure := (∃ c ∈ a.chars, c.noise = true ∨ c.framing = true) ∨ a.overrun = true
      ∨ a.length = none
      ∨ (∃ l, a.length = some l
          ∧ (a.chars.length < (if l.toNat ≤ 24 then 8 + l.toNat else 8) ∨ 25 ≤ l.toNat))
      ∨ a.checkPasses = false ∨ 2 ≤ s.rx.inbox.length
    let mismatch := ∃ kind sender, f.known = some (kind, sender) ∧ kind.sequenced = true
      ∧ s.port.station ∈ s.table.roster ∧ sender ∈ s.table.roster
      ∧ s.table.roster.idxOf s.port.station < s.table.roster.idxOf sender
      ∧ f.tseq ≠ s.expectedTseq
          + BitVec.ofNat 16 ((s.rx.inbox.filter fun x => x.accepted && x.frame.isSequenced).length)
          + (if s.rx.handoff.any Frame.isSequenced then 1 else 0)
    (s.vetoDecision a f = some .failure ↔ participates ∧ failure)
      ∧ (s.vetoDecision a f = some .mismatch ↔ participates ∧ ¬ failure ∧ mismatch)
      ∧ (s.vetoDecision a f = none ↔ ¬ participates ∨ ¬ failure ∧ ¬ mismatch)

/-- For an opening that stands behind other items, WINDOW_OPENING first takes the item at the head,
by the event that takes such an item from the head, and then goes on as from the state this leaves,
and so item by item up to the opening: the frame's remaining characters by their rule (R85), and,
which is the model's choice (log entry 28), the reports and results that stand between them by
theirs. For an opening at the head of the stream: with no frame in progress nothing else happens.
With a frame, of which each lost header or body character reads as a free value (log entry 7): no
veto, the decision at every station that does not participate, sets the own-veto counter to 0; a
failure veto below the limit raises the counter by 1; a mismatch veto keeps it and has a PRESENCE
owed or queued. A veto is driven in WINDOW. The frame is placed PROVISIONAL with its own-veto flag
at the tail of an inbox of fewer than 2 frames and is discarded with 2 there, and no frame is left
in progress. At an opening in WINDOW with the own-veto counter at 7, a failure veto, of a short
frame too, is driven and the station detaches with VETO-LIMIT, by R87 before the frame enters the
inbox: that detach leaves the inbox and the handoff slot empty and the counter 0, and then the frame
is placed, PROVISIONAL with its own-veto flag set, whatever the inbox held. (R84, R85, R87, R88,
R91, R92, R59, R102, R145) -/
def Obligations.WindowOpeningsAnswered : Prop :=
  (
    ∀ (x : StreamItem) (rest : List StreamItem) (s : State), s.line.stream = x :: rest →
      x ≠ .opening → .opening ∈ rest →
      let taker : Instr := match x with
        | .char _ => .takeCharacter
        | .truncation => .takeTruncation
        | .lineBreak => .takeBreak
        | .result _ => .windowResult
        | .opening => .windowOpening
      ∃ u, exec taker s = .next u ∧ (∃ more, u.line.stream = rest ++ more)
        ∧ exec .windowOpening s = exec .windowOpening u)
    ∧ (
    ∀ (rest : List StreamItem) (s : State), s.line.stream = .opening :: rest →
      (s.rx.assembly = none →
        exec .windowOpening s = .next { s with line := { s.line with stream := rest } })
      ∧ ∀ a : Assembly, s.rx.assembly = some a → ∃ missing : Nat → Byte,
        let f := a.frame missing
        let count := if a.short then s.freeCount + 1 else s.freeCount
        let placed (vetoed : Bool) : List InboxFrame :=
          if s.rx.inbox.length < 2
          then s.rx.inbox ++ [{ frame := f, accepted := false, ownVeto := vetoed }] else s.rx.inbox
        let vetoing : LineIf := { s.line with
          stream := rest, vetoDriving := s.line.vetoDriving || decide (s.line.state = .window) }
        (a.short = false → f = a.frame fun _ => 0)
        ∧ ((s.ctrl.station = .offline ∨ s.ctrl.station = .listening ∨ s.ctrl.station = .founding
            ∨ s.ctrl.station = .holdoff) → s.vetoDecision a f = none)
        ∧ (s.vetoDecision a f = none → exec .windowOpening s = .next
          { s with line := { s.line with stream := rest }, freeCount := count,
                   rx := { s.rx with assembly := none, ownVetoes := 0, inbox := placed false } })
        ∧ (s.vetoDecision a f = some .failure → s.rx.ownVetoes < 7 → exec .windowOpening s = .next
          { s with line := vetoing, freeCount := count,
                   rx := { s.rx with assembly := none, ownVetoes := s.rx.ownVetoes + 1,
                                     inbox := placed true } })
        ∧ (s.vetoDecision a f = some .mismatch →
          ∃ t, exec .windowOpening s = .next t ∧ t.line = vetoing ∧ t.freeCount = count
            ∧ t.rx = { s.rx with assembly := none, inbox := placed true }
            ∧ (t.ctrl.owed.presence = true ∨ ∃ e ∈ t.tx.queue, e.kind = .presence)
            ∧ t.table = s.table ∧ t.notices = s.notices ∧ t.port = s.port))
    ∧ (
    ∀ (rest : List StreamItem) (a : Assembly) (s : State), s.line.stream = .opening :: rest →
      s.rx.assembly = some a → s.line.state = .window → 7 ≤ s.rx.ownVetoes →
      s.vetoDecision a (a.frame fun _ => 0) = some .failure →
      ∃ (missing : Nat → Byte) (t u : State), exec .windowOpening s = .next t
        ∧ Detached .vetoLimit s u
        ∧ t = { u with rx :=
            { assembly := none, handoff := none, ownVetoes := 0,
              inbox := [{ frame := a.frame missing, accepted := false, ownVeto := true }] } }
        ∧ (a.short = false → a.frame missing = a.frame fun _ => 0)
        ∧ t.line = { s.line with stream := rest, vetoDriving := true }
        ∧ (t.ctrl.station = .holdoff ∨ t.ctrl.station = .offline))

/-- With a window result at the head of the stream and a PROVISIONAL frame at the inbox tail: CLEAN
with the own-veto flag clear makes it ACCEPTED in its place; otherwise it is discarded, and when
CLEAN meets a set flag on a sequenced frame in CATCHUP, MEMBER or LEAVING the station detaches with
DIVERGED. With no PROVISIONAL tail the result has no effect. (R93) -/
def Obligations.WindowResultTaken : Prop :=
  ∀ (clean : Bool) (rest : List StreamItem) (before : List InboxFrame) (f : Frame) (flag : Bool)
      (s : State), s.line.stream = .result clean :: rest →
    (s.rx.inbox = [] ∨ s.rx.inbox = before ++ [{ frame := f, accepted := true, ownVeto := flag }] →
      exec .windowResult s = .next { s with line := { s.line with stream := rest } })
    ∧ (s.rx.inbox = before ++ [{ frame := f, accepted := false, ownVeto := flag }] →
      (clean = true → flag = false → exec .windowResult s = .next
        { s with line := { s.line with stream := rest },
                 rx := { s.rx with
                   inbox := before ++ [{ frame := f, accepted := true, ownVeto := false }] } })
      ∧ (clean = false ∨ flag = true ∧ (f.isSequenced = false ∨ s.ctrl.station.inGroup = false) →
        exec .windowResult s = .next
        { s with line := { s.line with stream := rest }, rx := { s.rx with inbox := before } })
      ∧ (clean = true → flag = true → f.isSequenced = true → s.ctrl.station.inGroup = true →
        ∃ t, exec .windowResult s = .next t ∧ Detached .diverged s t))

/-- With an ACCEPTED head and an empty handoff slot: in OFFLINE and HOLDOFF, and for an unknown kind
or bad sender field in every state, HANDOFF only removes the head; in CATCHUP, MEMBER and LEAVING a
frame with a higher tag is set aside likewise, and one with a lower tag detaches the station with
FOREIGN-GROUP. In CATCHUP, MEMBER and LEAVING, an ANNOUNCE, a PRESENCE, and in MEMBER and LEAVING a
SNAPSHOT, accepted with the own tag and no difference of TSEQ, from a station that is not in the
eviction list, or that has no timer: the sender's silence timer, if one is kept, restarts at E
(frozen during a line fault), the frame leaves the inbox and has no recipient, and nothing else
changes. In MEMBER and LEAVING, with the own tag and no difference of TSEQ that R98 deals with: a
sequenced frame whose sender is in the roster stands in the handoff slot, its sender's silence timer
restarted at E (frozen during a line fault), the replica and the notices unchanged; one whose sender
is not in the roster and has no timer is set aside. In CATCHUP, MEMBER and LEAVING, an accepted
frame of any kind with the own tag and no difference of TSEQ, from a station in the eviction list
that has a silence timer: the timer restarts at E (frozen during a line fault) and the station
leaves the list. If it was not the EVICT in hand, that stays. If it was, OWED or with its entry
READY, the entry leaves the queue and the head of the list is the EVICT in hand, or none, and what
joins the queue is READY and unmarked: a frame that was owed, that next EVICT, for a JOIN-ASK in
MEMBER the ADMIT of the first listed joiner, and in CATCHUP the LEAVE of a failure; with its entry
ACTIVE the entry takes the cancel mark and stays in hand; with no entry it stays in hand. Two frames
are left out, whose senders have no timer: a SNAPSHOT in CATCHUP before install, when the roster is
the own station alone, and an own LEAVE after a catch-up failure. (R94, R95, R96, R41, R97, R98,
R100, R134, R99, R138, R139) -/
def Obligations.HandoffChecksAndTableEngine : Prop :=
  (
    ∀ (f : Frame) (flag : Bool) (rest : List InboxFrame) (s : State), s.rx.handoff = none →
      s.rx.inbox = { frame := f, accepted := true, ownVeto := flag } :: rest →
      (s.ctrl.station = .offline ∨ s.ctrl.station = .holdoff ∨ f.known = none →
        exec .handoff s = .next { s with rx := { s.rx with inbox := rest } })
      ∧ (f.known ≠ none → s.ctrl.station.inGroup = true →
        (s.table.tag < f.tag → exec .handoff s = .next { s with rx := { s.rx with inbox := rest } })
        ∧ (f.tag < s.table.tag → ∃ t, exec .handoff s = .next t ∧ Detached .foreignGroup s t)))
    ∧ (
    ∀ (f : Frame) (flag : Bool) (rest : List InboxFrame) (kind : FrameKind) (sender : Station)
        (s : State), s.rx.handoff = none →
      s.rx.inbox = { frame := f, accepted := true, ownVeto := flag } :: rest →
      s.ctrl.station.inGroup = true → f.known = some (kind, sender) → f.tag = s.table.tag →
      (kind = .announce ∨ sender ∉ s.table.roster ∨ sender = s.port.station
        ∨ f.tseq = s.expectedTseq) →
      (s.ctrl.silence[sender] = none ∨ sender ∉ s.ctrl.evictions) →
      (kind = .announce ∨ kind = .presence ∨ kind = .snapshot ∧ s.ctrl.station ≠ .catchup) →
      exec .handoff s = .next
        { s with rx := { s.rx with inbox := rest }, ctrl := s.heardFrom sender })
    ∧ (
    ∀ (f : Frame) (flag : Bool) (rest : List InboxFrame) (kind : FrameKind) (sender : Station)
        (s : State), s.rx.handoff = none →
      s.rx.inbox = { frame := f, accepted := true, ownVeto := flag } :: rest →
      (s.ctrl.station = .member ∨ s.ctrl.station = .leaving) → f.known = some (kind, sender) →
      kind.sequenced = true → f.tag = s.table.tag →
      (sender ∈ s.table.roster → (sender = s.port.station ∨ f.tseq = s.expectedTseq) →
        ∃ t, exec .handoff s = .next t
          ∧ t.rx = { s.rx with inbox := rest, handoff := some f } ∧ t.table = s.table
          ∧ t.notices = s.notices ∧ t.line = s.line ∧ t.port = s.port
          ∧ (∀ timer, s.ctrl.silence[sender] = some timer → t.ctrl.silence[sender] =
              some (if s.ctrl.lineFault then .frozen (s.table.k * (s.table.p * 10))
                else .running (s.table.k * (s.table.p * 10))))
          ∧ ∀ x : Station, x ≠ sender → t.ctrl.silence[x] = s.ctrl.silence[x])
      ∧ (sender ∉ s.table.roster → s.ctrl.silence[sender] = none →
        exec .handoff s = .next { s with rx := { s.rx with inbox := rest } }))
    ∧ (
    ∀ (f : Frame) (flag : Bool) (rest : List InboxFrame) (kind : FrameKind) (sender : Station)
        (timer : SilenceTimer) (s : State), s.rx.handoff = none →
      s.rx.inbox = { frame := f, accepted := true, ownVeto := flag } :: rest →
      s.ctrl.station.inGroup = true → f.known = some (kind, sender) → f.tag = s.table.tag →
      (kind = .announce ∨ kind = .joinAsk ∨ sender ∉ s.table.roster ∨ f.tseq = s.expectedTseq) →
      (kind = .snapshot → s.ctrl.station = .catchup → s.table.condition ≠ .pending) →
      (kind = .leave → s.ctrl.station = .catchup → s.ctrl.failed = true →
        sender ≠ s.port.station) →
      s.ctrl.silence[sender] = some timer → sender ∈ s.ctrl.evictions →
      ∃ t, exec .handoff s = .next t ∧ EvictionWithdrawn sender s t
        ∧ t.ctrl.silence = s.ctrl.silence.set sender
            (some (if s.ctrl.lineFault then .frozen (s.table.k * (s.table.p * 10))
              else .running (s.table.k * (s.table.p * 10))))
        ∧ (∀ before e after, s.ctrl.evictInHand = some ⟨sender, .queued⟩ →
            s.tx.queue = before ++ e :: after → e.kind = .evict → e.owner = .controller →
            e.state = .ready → (∀ x ∈ before, x.kind ≠ .evict) →
            ∃ extra, t.tx.queue = before ++ after ++ extra ∧ ∀ x ∈ extra, ∃ o : OwedFrame,
              x = { kind := o.kind, owner := o.owner, body := o.body s, state := .ready,
                    cancel := false, lastActive := false }
              ∧ (o ∈ s.owedFrames
                ∨ (∃ y, o = .evict y
                    ∧ (s.ctrl.evictions.filter fun z => decide (z ≠ sender)).head? = some y)
                ∨ kind = .joinAsk ∧ s.ctrl.station = .member
                    ∧ (∃ j, o = .admission j ∧ (s.ctrl.joinAsks ++ [sender]).head? = some j)
                ∨ s.ctrl.station = .catchup ∧ o = .leave))
        ∧ t.table = s.table ∧ t.notices = s.notices ∧ t.line = s.line)

/-- In CATCHUP, MEMBER and LEAVING, for a sequenced, PRESENCE or SNAPSHOT frame with the own tag
from another roster member whose TSEQ differs from the own expected TSEQ: a senior sender detaches
the station with DIVERGED; a junior sender leaves a PRESENCE owed or queued and the replica as it
was, and its frame goes on to its recipient: a sequenced one to the handoff slot in MEMBER and
LEAVING and to the pending-apply queue in CATCHUP after install (with room there and no failure;
that the catch-up count rises modulo 65536 is log entry 27, DEDUCED, unsafe), a PRESENCE to none,
and a SNAPSHOT to none outside CATCHUP before install. (R98, R100, R123, R133) -/
def Obligations.HandoffSeniorityRule : Prop :=
  ∀ (f : Frame) (flag : Bool) (rest : List InboxFrame) (kind : FrameKind) (sender : Station)
      (s : State), s.rx.handoff = none →
    s.rx.inbox = { frame := f, accepted := true, ownVeto := flag } :: rest →
    s.ctrl.station.inGroup = true → f.known = some (kind, sender) →
    (kind.sequenced = true ∨ kind = .presence ∨ kind = .snapshot) → f.tag = s.table.tag →
    sender ∈ s.table.roster → sender ≠ s.port.station → f.tseq ≠ s.expectedTseq →
    s.port.station ∈ s.table.roster →
    (s.table.roster.idxOf sender < s.table.roster.idxOf s.port.station →
      ∃ t, exec .handoff s = .next t ∧ Detached .diverged s t)
    ∧ (s.table.roster.idxOf s.port.station < s.table.roster.idxOf sender →
      ((kind = .presence ∨ kind = .snapshot
            ∧ (s.ctrl.station ≠ .catchup ∨ s.table.condition = .present)) →
        ∃ t, exec .handoff s = .next t
          ∧ (t.ctrl.owed.presence = true ∨ ∃ e ∈ t.tx.queue, e.kind = .presence)
          ∧ t.ctrl.station = s.ctrl.station ∧ t.table = s.table
          ∧ t.ctrl.pendingApply = s.ctrl.pendingApply ∧ t.ctrl.snapshot = s.ctrl.snapshot
          ∧ t.rx = { s.rx with inbox := rest } ∧ t.notices = s.notices)
      ∧ (kind.sequenced = true → s.ctrl.station = .member ∨ s.ctrl.station = .leaving →
        ∃ t, exec .handoff s = .next t
          ∧ (t.ctrl.owed.presence = true ∨ ∃ e ∈ t.tx.queue, e.kind = .presence)
          ∧ t.ctrl.station = s.ctrl.station ∧ t.table = s.table
          ∧ t.rx = { s.rx with inbox := rest, handoff := some f } ∧ t.notices = s.notices)
      ∧ (kind.sequenced = true → s.ctrl.station = .catchup → s.table.condition = .present →
        s.ctrl.failed = false → s.ctrl.pendingApply.length < 16 →
        ∃ t, exec .handoff s = .next t
          ∧ (t.ctrl.owed.presence = true ∨ ∃ e ∈ t.tx.queue, e.kind = .presence)
          ∧ t.ctrl.station = .catchup ∧ t.table = s.table
          ∧ t.ctrl.pendingApply = s.ctrl.pendingApply ++ [f]
          ∧ t.ctrl.catchupCount = s.ctrl.catchupCount + 1 ∧ t.ctrl.failed = false
          ∧ t.rx = { s.rx with inbox := rest } ∧ t.notices = s.notices))

/-- In LISTENING a frame makes the lowest tag heard the smaller of it and the frame's tag; the
learned E is replaced when the tag becomes lower (by the E of an ANNOUNCE that carries parameters,
or none), is replaced by that E when the tag is equal, and stays otherwise. Nothing else but the
inbox head changes. In FOUNDING with the replica ABSENT, the own ANNOUNCE makes the station MEMBER
of a PRESENT replica with the frame's tag, the own P, k and limits, the own station as roster and
TSEQ 0, raises the founding counter modulo 8 and posts JOINED; an own frame of another kind has no
effect; a frame from another station takes it to ASKING for that frame's tag with ask count 1, the
working E by an ANNOUNCE that carries parameters, no ANNOUNCE owed and a JOIN-ASK owed or queued;
where the ANNOUNCE was not owed any more, one of the controller that is left in the queue is ACTIVE
with the cancel mark. In ASKING with the replica ABSENT: an ADMIT with the asked tag naming the own
station takes it to CATCHUP with a PENDING replica (the frame's tag, the own station as roster, TSEQ
one more than the frame's), that donor and base TSEQ, an empty pending-apply queue with count 0, and
the stall timer at the working E; no JOIN-ASK is owed, every READY one of the controller has left
the queue, however many stood there (log entry 36, DEDUCED), and an ACTIVE one has the cancel mark;
that this holds for a sender of the own number too is the model's choice (log entry 19, DEDUCED).
Every other frame of the own number has no effect. A frame with a lower tag from another station
becomes the asked tag with ask count 1 and the ask timer stopped, the learned and working E renewed,
a JOIN-ASK owed or queued. With an equal tag an ANNOUNCE that carries parameters renews the learned
and working E, and any other frame but that ADMIT, and any with a higher tag, has no effect. In each
of the three states a SNAPSHOT that carries no part is set aside, which is the model's choice (log
entry 18, DEDUCED). (R107, R101, R43, R110, R111, R113, R28, R78, R115, R116, R27, R132) -/
def Obligations.HandoffWithoutAReplica : Prop :=
  (
    ∀ (f : Frame) (flag : Bool) (rest : List InboxFrame) (kind : FrameKind) (sender : Station)
        (s : State), s.rx.handoff = none →
      s.rx.inbox = { frame := f, accepted := true, ownVeto := flag } :: rest →
      s.ctrl.station = .listening → f.known = some (kind, sender) →
      let e : Option Nat := if kind = .announce
        then (announceParameters f.body).map fun x => x.2 * (x.1 * 10) else none
      (kind = .snapshot → f.body.length < 6 →
        exec .handoff s = .next { s with rx := { s.rx with inbox := rest } })
      ∧ (kind ≠ .snapshot ∨ 6 ≤ f.body.length →
        ((s.ctrl.lowestTag = none ∨ ∃ low, s.ctrl.lowestTag = some low ∧ f.tag < low) →
          exec .handoff s = .next
            { s with rx := { s.rx with inbox := rest },
                     ctrl := { s.ctrl with lowestTag := some f.tag, learnedE := e } })
        ∧ (s.ctrl.lowestTag = some f.tag → exec .handoff s = .next
            { s with rx := { s.rx with inbox := rest },
                     ctrl := { s.ctrl with learnedE := if e = none then s.ctrl.learnedE else e } })
        ∧ (∀ low, s.ctrl.lowestTag = some low → low < f.tag → exec .handoff s = .next
            { s with rx := { s.rx with inbox := rest } })))
    ∧ (
    ∀ (f : Frame) (flag : Bool) (rest : List InboxFrame) (kind : FrameKind) (sender : Station)
        (s : State), s.rx.handoff = none →
      s.rx.inbox = { frame := f, accepted := true, ownVeto := flag } :: rest →
      s.ctrl.station = .founding → f.known = some (kind, sender) →
      let e : Option Nat := if kind = .announce
        then (announceParameters f.body).map fun x => x.2 * (x.1 * 10) else none
      (kind = .snapshot → f.body.length < 6 →
        exec .handoff s = .next { s with rx := { s.rx with inbox := rest } })
      ∧ (kind = .announce → sender = s.port.station → s.table.condition = .absent →
        ∃ t, exec .handoff s = .next t ∧ t.ctrl.station = .member
          ∧ t.table = { condition := .present, tag := f.tag, p := s.port.store.p,
                        k := s.port.store.k, limits := s.port.store.limits,
                        roster := [s.port.station], queues := Vector.replicate 64 [], tseq := 0 }
          ∧ t.ctrl.founding = s.ctrl.founding + 1
          ∧ t.ctrl.workingE = s.port.store.k * (s.port.store.p * 10)
          ∧ t.ctrl.presence = .running (s.port.store.p * 10)
          ∧ t.notices = s.notices.post .joined f.tag ∧ t.rx = { s.rx with inbox := rest })
      ∧ (kind ≠ .announce → sender = s.port.station →
        exec .handoff s = .next { s with rx := { s.rx with inbox := rest } })
      ∧ (sender ≠ s.port.station → (kind ≠ .snapshot ∨ 6 ≤ f.body.length) →
        ∃ t, exec .handoff s = .next t ∧ t.ctrl.station = .asking ∧ t.ctrl.askedTag = f.tag
          ∧ t.ctrl.askCount = 1 ∧ t.ctrl.ask = .stopped ∧ t.ctrl.owed.announce = false
          ∧ (∀ n, e = some n → t.ctrl.learnedE = e ∧ t.ctrl.workingE = n)
          ∧ (t.ctrl.owed.joinAsk = true ∨ ∃ e ∈ t.tx.queue, e.kind = .joinAsk)
          ∧ (s.ctrl.owed.announce = false →
              (∀ x ∈ t.tx.queue, x.kind = .announce → x.owner = .controller →
                x.state = .active ∧ x.cancel = true)
              ∧ ∀ x ∈ s.tx.queue, x.kind = .announce → x.owner = .controller → x.state = .active →
                { x with cancel := true } ∈ t.tx.queue)
          ∧ t.table = s.table ∧ t.notices = s.notices ∧ t.rx = { s.rx with inbox := rest }))
    ∧ (
    ∀ (f : Frame) (flag : Bool) (rest : List InboxFrame) (kind : FrameKind) (sender : Station)
        (s : State), s.rx.handoff = none →
      s.rx.inbox = { frame := f, accepted := true, ownVeto := flag } :: rest →
      s.ctrl.station = .asking → f.known = some (kind, sender) →
      let e : Option Nat := if kind = .announce
        then (announceParameters f.body).map fun x => x.2 * (x.1 * 10) else none
      let admitsOwn := kind = .admission ∧ f.tag = s.ctrl.askedTag
        ∧ f.body.head? = some (byteOf s.port.station.val)
      (kind = .snapshot → f.body.length < 6 →
        exec .handoff s = .next { s with rx := { s.rx with inbox := rest } })
      ∧ (admitsOwn → s.table = .absent →
        ∃ t, exec .handoff s = .next t ∧ t.ctrl.station = .catchup
          ∧ t.table = { Replica.absent with
                          condition := .pending, tag := f.tag,
                          roster := [s.port.station], tseq := f.tseq + 1 }
          ∧ t.ctrl.baseTseq = f.tseq + 1 ∧ t.ctrl.donorStation = some sender
          ∧ t.ctrl.pendingApply = [] ∧ t.ctrl.catchupCount = 0 ∧ t.ctrl.failed = false
          ∧ t.ctrl.ask = .stopped ∧ t.ctrl.stall = .running s.ctrl.workingE
          ∧ t.ctrl.owed.joinAsk = false
          ∧ (∀ x ∈ t.tx.queue, x.kind = .joinAsk → x.owner = .controller →
              x.state = .active ∧ x.cancel = true)
          ∧ (∀ x ∈ s.tx.queue, x.kind = .joinAsk → x.owner = .controller → x.state = .active →
              { x with cancel := true } ∈ t.tx.queue)
          ∧ t.ctrl.presence = .running (min (s.port.store.p * 10) (s.ctrl.workingE / 3))
          ∧ t.notices = s.notices ∧ t.rx = { s.rx with inbox := rest })
      ∧ (sender = s.port.station → ¬ admitsOwn →
        exec .handoff s = .next { s with rx := { s.rx with inbox := rest } })
      ∧ (sender ≠ s.port.station → (kind ≠ .snapshot ∨ 6 ≤ f.body.length) →
        (f.tag < s.ctrl.askedTag →
          ∃ t, exec .handoff s = .next t ∧ t.ctrl.station = .asking ∧ t.ctrl.askedTag = f.tag
            ∧ t.ctrl.askCount = 1 ∧ t.ctrl.ask = .stopped ∧ t.ctrl.learnedE = e
            ∧ t.ctrl.workingE = e.getD (s.port.store.k * (s.port.store.p * 10))
            ∧ (t.ctrl.owed.joinAsk = true ∨ ∃ e ∈ t.tx.queue, e.kind = .joinAsk)
            ∧ t.table = s.table ∧ t.notices = s.notices ∧ t.rx = { s.rx with inbox := rest })
        ∧ (∀ n, f.tag = s.ctrl.askedTag → e = some n → exec .handoff s = .next
            { s with rx := { s.rx with inbox := rest },
                     ctrl := { s.ctrl with learnedE := some n, workingE := n } })
        ∧ (f.tag = s.ctrl.askedTag → e = none → ¬ admitsOwn → exec .handoff s = .next
            { s with rx := { s.rx with inbox := rest } })
        ∧ (s.ctrl.askedTag < f.tag → exec .handoff s = .next
            { s with rx := { s.rx with inbox := rest } })))

/-- In CATCHUP, with the own tag and no difference of TSEQ that R98 deals with, a sequenced frame is
placed at the tail of the pending-apply queue and the count rises by 1, before install and after it,
from roster members and others; nothing else changes where its sender has no silence timer. With 16
frames there it is a catch-up failure: the queue is discarded, the count still rises, the failure
flag is set, the snapshot buffer is empty, the stall timer restarts and a LEAVE is owed or queued.
Before install the removal of the donor, by an EVICT naming it or its own LEAVE, is counted and is
such a failure. After a failure the frame is only counted, but for the own LEAVE, which detaches the
station with CATCHUP-FAILED, or LEFT under a leave mark. That the count goes on modulo 65536, from
65535 to 0, is log entry 27 (DEDUCED, unsafe). A JOIN-ASK with the own tag from a station that is
not in the eviction list, or that has no timer, restarts the sender's silence timer if one is kept.
In CATCHUP and LEAVING, at a member that is not the head of its roster, and from a station in the
roster, in the join-ask list, or while that list holds 4, it changes nothing else. Otherwise the
station is listed at the tail: with the donor phase ADMITTING or DONATING nothing else changes, and
with the phase NONE the phase is ADMITTING the station at the head of the list, and an ADMIT naming
it is owed or queued. (R100, R123, R128, R129, R143, R97, R117, R118, R134) -/
def Obligations.HandoffToController : Prop :=
  (
    ∀ (f : Frame) (flag : Bool) (rest : List InboxFrame) (kind : FrameKind) (sender : Station)
        (s : State), s.rx.handoff = none →
      s.rx.inbox = { frame := f, accepted := true, ownVeto := flag } :: rest →
      s.ctrl.station = .catchup → f.known = some (kind, sender) →
      kind.sequenced = true → f.tag = s.table.tag →
      (sender ∉ s.table.roster ∨ sender = s.port.station ∨ f.tseq = s.expectedTseq) →
      let failure (t : State) : Prop :=
        exec .handoff s = .next t ∧ t.ctrl.station = .catchup ∧ t.ctrl.failed = true
          ∧ t.ctrl.pendingApply = [] ∧ t.ctrl.catchupCount = s.ctrl.catchupCount + 1
          ∧ (t.ctrl.owed.leave = true ∨ ∃ e ∈ t.tx.queue, e.kind = .leave)
          ∧ t.ctrl.snapshot = .empty ∧ t.ctrl.stall = .running s.ctrl.workingE
          ∧ t.table = s.table ∧ t.rx = { s.rx with inbox := rest } ∧ t.notices = s.notices
      (s.ctrl.failed = false → s.ctrl.pendingApply.length < 16 →
        (s.table.condition = .present ∨ ∀ d, s.ctrl.donorStation = some d →
          (kind = .evict → f.body.head? ≠ some (byteOf d.val)) ∧ (kind = .leave → sender ≠ d)) →
        (∃ t, exec .handoff s = .next t ∧ t.ctrl.station = .catchup ∧ t.ctrl.failed = false
          ∧ t.ctrl.pendingApply = s.ctrl.pendingApply ++ [f]
          ∧ t.ctrl.catchupCount = s.ctrl.catchupCount + 1
          ∧ t.ctrl.stall = s.ctrl.stall ∧ t.ctrl.snapshot = s.ctrl.snapshot
          ∧ t.table = s.table ∧ t.rx = { s.rx with inbox := rest } ∧ t.notices = s.notices
          ∧ t.line = s.line)
        ∧ (s.ctrl.silence[sender] = none → exec .handoff s = .next
          { s with rx := { s.rx with inbox := rest },
                   ctrl := { s.ctrl with pendingApply := s.ctrl.pendingApply ++ [f],
                                         catchupCount := s.ctrl.catchupCount + 1 } }))
      ∧ (s.ctrl.failed = false → 16 ≤ s.ctrl.pendingApply.length → ∃ t, failure t)
      ∧ (∀ d, s.ctrl.failed = false → s.table.condition ≠ .present → s.ctrl.donorStation = some d →
        (kind = .evict ∧ f.body.head? = some (byteOf d.val) ∨ kind = .leave ∧ sender = d) →
        ∃ t, failure t)
      ∧ (s.ctrl.failed = true → (kind ≠ .leave ∨ sender ≠ s.port.station) →
        (∃ t, exec .handoff s = .next t ∧ t.ctrl.station = .catchup ∧ t.ctrl.failed = true
          ∧ t.ctrl.pendingApply = s.ctrl.pendingApply
          ∧ t.ctrl.catchupCount = s.ctrl.catchupCount + 1
          ∧ t.table = s.table ∧ t.rx = { s.rx with inbox := rest } ∧ t.notices = s.notices)
        ∧ (s.ctrl.silence[sender] = none → exec .handoff s = .next
          { s with rx := { s.rx with inbox := rest },
                   ctrl := { s.ctrl with catchupCount := s.ctrl.catchupCount + 1 } }))
      ∧ (s.ctrl.failed = true → kind = .leave → sender = s.port.station →
        ∃ t, exec .handoff s = .next t
          ∧ Detached (if s.ctrl.leaveMark then .left else .catchupFailed) s t))
    ∧ (
    ∀ (f : Frame) (flag : Bool) (rest : List InboxFrame) (j : Station) (s : State),
      s.rx.handoff = none →
      s.rx.inbox = { frame := f, accepted := true, ownVeto := flag } :: rest →
      s.ctrl.station.inGroup = true → f.known = some (.joinAsk, j) → f.tag = s.table.tag →
      (s.ctrl.silence[j] = none ∨ j ∉ s.ctrl.evictions) →
      let heard := s.heardFrom j
      (s.ctrl.station ≠ .member ∨ s.table.roster.head? ≠ some s.port.station ∨ j ∈ s.table.roster
          ∨ j ∈ s.ctrl.joinAsks ∨ 4 ≤ s.ctrl.joinAsks.length →
        exec .handoff s = .next { s with rx := { s.rx with inbox := rest }, ctrl := heard })
      ∧ (s.ctrl.station = .member → s.table.roster.head? = some s.port.station →
        j ∉ s.table.roster → j ∉ s.ctrl.joinAsks → s.ctrl.joinAsks.length < 4 →
        (s.ctrl.donor ≠ .none → exec .handoff s = .next
          { s with rx := { s.rx with inbox := rest },
                   ctrl := { heard with joinAsks := s.ctrl.joinAsks ++ [j] } })
        ∧ ∀ first more, s.ctrl.donor = .none → s.ctrl.joinAsks ++ [j] = first :: more →
          ∃ t, exec .handoff s = .next t ∧ t.ctrl.joinAsks = first :: more
            ∧ t.ctrl.donor = .admitting first
            ∧ (t.ctrl.owed.admission = true
              ∨ ∃ e ∈ t.tx.queue, e.kind = .admission ∧ e.body = [byteOf first.val])
            ∧ t.ctrl.silence = heard.silence ∧ t.ctrl.evictions = s.ctrl.evictions
            ∧ t.table = s.table ∧ t.notices = s.notices ∧ t.line = s.line
            ∧ t.rx = { s.rx with inbox := rest }))

/-- In CATCHUP before install and without a failure, a SNAPSHOT of the donor with the own tag that
names the own station and carries a part, from a sender without a silence timer and with no
difference of TSEQ that R98 deals with: a part that passes the checks of R47 and is not the last is
appended and restarts the stall timer; one that breaks a check is a catch-up failure; the last one
stops the stall timer and makes the install request. Refused, that is a catch-up failure with the
replica as it was. Installed, the replica is the installed one, the snapshot buffer is empty, the
working E is the group's, silence timers start for the other members (frozen during a line fault),
ROSTER-CHANGED is posted once, and whether the configuration differs is noted; with an empty
pending-apply queue the station is MEMBER at once, with JOINED and, if the configuration differs,
CONFIG-ADOPTED posted. In CATCHUP a SNAPSHOT with the own tag and no difference of TSEQ, from a
station that is not in the eviction list, or that has no timer, restarts the sender's silence timer
if one is kept, and changes nothing else after a catch-up failure, after install, when its sender is
not the donor, when it names another joiner, and when it carries no part. (R100, R45, R47, R124,
R125, R127, R128, R134, R135, R97, R98, R129) -/
def Obligations.PartsTakenAndInstalled : Prop :=
  (
    ∀ (f : Frame) (flag : Bool) (rest : List InboxFrame) (sender : Station) (p c lo hi : Byte)
        (data : List Byte) (s : State), s.rx.handoff = none →
      s.rx.inbox = { frame := f, accepted := true, ownVeto := flag } :: rest →
      s.ctrl.station = .catchup → s.table.condition = .pending → s.ctrl.failed = false →
      f.known = some (.snapshot, sender) → s.ctrl.donorStation = some sender →
      f.body = byteOf s.port.station.val :: p :: c :: lo :: hi :: data → data ≠ [] →
      f.tag = s.table.tag →
      (sender ∉ s.table.roster ∨ sender = s.port.station ∨ f.tseq = s.expectedTseq) →
      s.ctrl.silence[sender] = none →
      let b := s.ctrl.snapshot
      let passes := p.toNat = b.part + 1 ∧ 4 ≤ c.toNat ∧ c.toNat ≤ 26
        ∧ (b.part = 0 ∨ c.toNat = b.partCount) ∧ p.toNat ≤ c.toNat ∧ (p = c ∨ data.length = 19)
      let failure (t : State) : Prop :=
        exec .handoff s = .next t ∧ t.ctrl.station = .catchup ∧ t.ctrl.failed = true
          ∧ t.ctrl.pendingApply = [] ∧ t.ctrl.catchupCount = s.ctrl.catchupCount
          ∧ t.ctrl.snapshot = .empty ∧ t.ctrl.stall = .running s.ctrl.workingE
          ∧ (t.ctrl.owed.leave = true ∨ ∃ e ∈ t.tx.queue, e.kind = .leave)
          ∧ t.table = s.table ∧ t.rx = { s.rx with inbox := rest } ∧ t.notices = s.notices
      (passes → p ≠ c → exec .handoff s = .next
        { s with rx := { s.rx with inbox := rest },
                 ctrl := { s.ctrl with
                   snapshot := { image := b.image ++ data, tseq := hi ++ lo, partCount := c.toNat,
                                 part := p.toNat },
                   stall := .running s.ctrl.workingE } })
      ∧ (¬ passes → ∃ t, failure t)
      ∧ (passes → p = c →
        s.table.install s.port.station (b.image ++ data) (hi ++ lo) = none → ∃ t, failure t)
      ∧ ∀ r, passes → p = c →
        s.table.install s.port.station (b.image ++ data) (hi ++ lo) = some r →
        let roster := s.notices.post .rosterChanged (byteOf r.roster.length)
        let differs := r.p ≠ s.port.store.p ∨ r.k ≠ s.port.store.k ∨ r.limits ≠ s.port.store.limits
        ∃ t, exec .handoff s = .next t ∧ t.table = r ∧ t.rx = { s.rx with inbox := rest }
          ∧ t.ctrl.snapshot = .empty ∧ t.ctrl.stall = .stopped ∧ t.ctrl.failed = false
          ∧ t.ctrl.workingE = r.k * (r.p * 10) ∧ t.ctrl.presence = .running (r.p * 10)
          ∧ (t.ctrl.configDiffers = true ↔ differs)
          ∧ t.ctrl.pendingApply = s.ctrl.pendingApply
          ∧ (∀ x : Station, x ∈ r.roster → x ≠ s.port.station → t.ctrl.silence[x] =
              some (if s.ctrl.lineFault then .frozen (r.k * (r.p * 10))
                else .running (r.k * (r.p * 10))))
          ∧ (∀ x : Station, (x ∉ r.roster ∨ x = s.port.station) →
              t.ctrl.silence[x] = s.ctrl.silence[x])
          ∧ (s.ctrl.pendingApply ≠ [] → t.ctrl.station = .catchup
              ∧ t.ctrl.catchupCount = s.ctrl.catchupCount ∧ t.notices = roster)
          ∧ (s.ctrl.pendingApply = [] → t.ctrl.station = .member ∧ t.ctrl.catchupCount = 0
              ∧ (¬ differs → t.notices = roster.post .joined r.tag)
              ∧ (differs → t.notices = (roster.post .joined r.tag).post .configAdopted 0)))
    ∧ (
    ∀ (f : Frame) (flag : Bool) (rest : List InboxFrame) (sender : Station) (s : State),
      s.rx.handoff = none →
      s.rx.inbox = { frame := f, accepted := true, ownVeto := flag } :: rest →
      s.ctrl.station = .catchup → f.known = some (.snapshot, sender) → f.tag = s.table.tag →
      (sender ∉ s.table.roster ∨ sender = s.port.station ∨ f.tseq = s.expectedTseq) →
      (s.ctrl.silence[sender] = none ∨ sender ∉ s.ctrl.evictions) →
      (s.ctrl.failed = true ∨ s.table.condition ≠ .pending ∨ s.ctrl.donorStation ≠ some sender
        ∨ f.body.head? ≠ some (byteOf s.port.station.val) ∨ f.body.length < 6) →
      exec .handoff s = .next
        { s with rx := { s.rx with inbox := rest }, ctrl := s.heardFrom sender })

/-- With a sequenced frame in the handoff slot and the replica PRESENT, APPLICATION empties the slot
and, unless the frame removes the own station, leaves the replica that Replica.apply gives, with
TSEQ one more, modulo 65536, and the line interface and the port unchanged. In MEMBER and LEAVING
with the replica PRESENT, applying an EVICT that names the own station detaches it with EVICTED, and
applying the own LEAVE detaches it with LEFT; the replica is ABSENT. (R10, R14, R94, R20, R21, R140,
R142) -/
def Obligations.ApplicationWhole : Prop :=
  (
    ∀ (f : Frame) (kind : FrameKind) (sender : Station) (s : State), s.rx.handoff = some f →
      s.table.condition = .present → f.known = some (kind, sender) → kind.sequenced = true →
      ¬ (kind = .leave ∧ sender = s.port.station) →
      ¬ (kind = .evict ∧ ∃ x more, f.body = x :: more ∧ x.toNat = s.port.station.val) →
      ∃ t, exec .application s = .next t ∧ t.rx = { s.rx with handoff := none }
        ∧ t.table = (s.table.apply s.port.station f).1 ∧ t.table.tseq = s.table.tseq + 1
        ∧ t.table.condition = .present ∧ t.table.tag = s.table.tag
        ∧ t.table.limits = s.table.limits ∧ t.line = s.line ∧ t.port = s.port)
    ∧ (
    ∀ (f : Frame) (sender : Station) (s : State), s.rx.handoff = some f →
      s.table.condition = .present → (s.ctrl.station = .member ∨ s.ctrl.station = .leaving) →
      (∀ x more, f.known = some (.evict, sender) → f.body = x :: more →
        x.toNat = s.port.station.val →
        ∃ t, exec .application s = .next t ∧ Detached .evicted s t)
      ∧ (f.known = some (.leave, s.port.station) →
        ∃ t, exec .application s = .next t ∧ Detached .left s t))

/-- An application changes the replica and then takes its reports in their order, in the one event.
A report for a record that holds the resource it names acts by the record's state: an insertion
makes a QUEUED record WAITING or GRANTED (its timer stopped), or, with a cancel-owed reason,
DROPPING with that reason and its drop owed or queued; a refusal makes it DONE with that outcome;
PROMOTED makes a WAITING record GRANTED; REMOVED and DROP-NO-ENTRY make a DROPPING record DONE with
the outcome of its reason; REMOVED makes a WAITING or GRANTED record DONE with LOST. Each change is
posted to the record's slot. Every other report, and one that names another resource, is ignored.
(R24, R156, R157, R158, R159, R160) -/
def Obligations.ApplicationReachesTheRecords : Prop :=
  ∀ s : State,
    (∀ f, s.rx.handoff = some f → s.table.condition = .present → exec .application s = .next
      ((s.table.apply s.port.station f).2.foldl State.takeTableReport
        { s with rx := { s.rx with handoff := none },
                 table := (s.table.apply s.port.station f).1 }))
    ∧ ∀ (k : RecordIndex) (resource record : Byte) (news : ClaimNews), record.toNat = k.val →
      let r := s.records[k]
      let taken := s.takeTableReport (.claim resource record news)
      let becomes (x : ClaimRecord) : State :=
        { s with records := s.records.set k x, notices := s.notices.post (.slot r.slot) record }
      let done (o : ClaimOutcome) : ClaimRecord :=
        { r with state := .done, waitTimer := none, cancelOwed := none, dropReason := none,
                 owedDrop := false, outcome := some o }
      (resource.toNat ≠ r.resource.val → taken = s)
      ∧ (resource.toNat = r.resource.val →
        (r.state = .queued → r.cancelOwed = none → news = .insertedWaiting →
          taken = becomes { r with state := .waiting })
        ∧ (r.state = .queued → r.cancelOwed = none → news = .insertedGranted →
          taken = becomes { r with state := .granted, waitTimer := none })
        ∧ (∀ reason, r.state = .queued → r.cancelOwed = some reason →
          (news = .insertedWaiting ∨ news = .insertedGranted) →
          taken.records[k].state = .dropping ∧ taken.records[k].cancelOwed = none
            ∧ taken.records[k].waitTimer = none
            ∧ taken.records[k].dropReason =
                some (if reason = .withdrawn then .withdrawn else .timedOut)
            ∧ (taken.records[k].owedDrop = true
                ∨ ∃ e ∈ taken.tx.queue, e.kind = .drop ∧ e.owner = .claimUnit k)
            ∧ taken.notices = s.notices.post (.slot r.slot) record ∧ taken.table = s.table)
        ∧ (∀ o, r.state = .queued → news = .refused o → taken = becomes (done o))
        ∧ (r.state = .waiting → news = .promoted →
          taken = becomes { r with state := .granted, waitTimer := none })
        ∧ (∀ d, r.state = .dropping → r.dropReason = some d →
          (news = .removed ∨ news = .dropNoEntry) →
          taken = becomes (done (match d with
            | .withdrawn => .withdrawn
            | .timedOut => .timedOut
            | .released => .released)))
        ∧ ((r.state = .waiting ∨ r.state = .granted) → news = .removed →
          taken = becomes (done .lost))
        ∧ ((r.state = .free ∨ r.state = .done
            ∨ r.state = .queued ∧ (news = .promoted ∨ news = .removed ∨ news = .dropNoEntry)
            ∨ r.state = .waiting ∧ news ≠ .promoted ∧ news ≠ .removed
            ∨ r.state = .granted ∧ news ≠ .removed
            ∨ r.state = .dropping ∧ news ≠ .removed ∧ news ≠ .dropNoEntry) → taken = s))

/-- Taking a report of an application (that they are taken in order is another statement): a member
added starts its silence timer at E (frozen during a line fault) and posts ROSTER-CHANGED with the
roster count. A member removed discards its timer, posts ROSTER-CHANGED, withdraws a listed station
from eviction, and ends a donation to it (that the withdrawal, with its next EVICT, comes before the
end of the donation is the model's choice, log entry 46). The own ADMIT with effect freezes the
image, with its TSEQ and part count, and owes part 1 to the joiner; without effect it ends the
donation; a donor phase other than ADMITTING ignores it. The end of a donation leaves no part owed,
every queued part removed if READY and marked if ACTIVE by its cancellation, the reports still to
come for parts counted as those of an ended donation (the model's own count, log entry 37), the
snapshot buffer empty, the joiner out of the list, and, in MEMBER, the next listed station being
admitted. The own removal detaches. (R7, R78, R118, R119, R120, R121, R134, R135, R138, R139, R140,
R145) -/
def Obligations.ApplicationReachesTheController : Prop :=
  ∀ s : State,
    let e := s.table.k * (s.table.p * 10)
    let roster := s.notices.post .rosterChanged (byteOf s.table.roster.length)
    let ended (j : Station) (t : State) : Prop :=
      t.ctrl.owed.snapshot = false ∧ t.ctrl.snapshot = .empty
        ∧ t.ctrl.joinAsks = s.ctrl.joinAsks.filter (fun x => decide (x ≠ j))
        ∧ t.ctrl.donor = (match s.ctrl.joinAsks.filter (fun x => decide (x ≠ j)) with
          | [] => .none
          | next :: _ => if s.ctrl.station = .member then .admitting next else .none)
        ∧ (∀ next, t.ctrl.donor = .admitting next → t.ctrl.owed.admission = true
            ∨ ∃ x ∈ t.tx.queue, x.kind = .admission)
        ∧ (∀ x ∈ t.tx.queue, x.kind = .snapshot → x.owner = .controller →
            x.state = .active ∧ x.cancel = true)
        ∧ (∀ x ∈ s.tx.queue, x.kind = .snapshot → x.owner = .controller → x.state = .active →
            { x with cancel := true } ∈ t.tx.queue)
        ∧ t.ctrl.staleParts =
            (s.tx.reports.countP fun x => decide (x = .accepted .snapshot .controller
                ∨ x = .withdrawn .snapshot .controller))
              + s.tx.queue.countP fun x => decide (x.kind = .snapshot ∧ x.owner = .controller
                  ∧ x.state = .active)
        ∧ t.table = s.table ∧ t.rx = s.rx ∧ t.line = s.line
    (∀ j, s.takeTableReport (.memberAdded j) =
      { s with
        ctrl := { s.ctrl with
          silence := s.ctrl.silence.set j
            (some (if s.ctrl.lineFault then .frozen e else .running e)) },
        notices := roster })
    ∧ (∀ x how,
      let t := s.takeTableReport (.memberRemoved x how)
      t.ctrl.silence = s.ctrl.silence.set x none ∧ t.notices = roster ∧ t.table = s.table
        ∧ t.rx = s.rx ∧ t.line = s.line
        ∧ (x ∈ s.ctrl.evictions → EvictionWithdrawn x s t)
        ∧ (x ∉ s.ctrl.evictions → t.ctrl.evictions = s.ctrl.evictions
            ∧ t.ctrl.evictInHand.map EvictInHand.target
                = s.ctrl.evictInHand.map EvictInHand.target)
        ∧ (s.ctrl.donor = .admitting x ∨ s.ctrl.donor = .donating x → ended x t)
        ∧ (s.ctrl.donor ≠ .admitting x → s.ctrl.donor ≠ .donating x →
            t.ctrl.donor = s.ctrl.donor ∧ t.ctrl.snapshot = s.ctrl.snapshot
              ∧ t.ctrl.joinAsks = s.ctrl.joinAsks))
    ∧ (∀ j, s.ctrl.donor = .admitting j →
      (let t := s.takeTableReport (.admitResult true);
        t.ctrl.donor = .donating j ∧ t.ctrl.joinAsks = s.ctrl.joinAsks
          ∧ t.ctrl.snapshot = { image := s.table.image, tseq := s.table.tseq,
                                partCount := (s.table.image.length + 18) / 19, part := 1 }
          ∧ (t.ctrl.owed.snapshot = true ∨ ∃ x ∈ t.tx.queue, x.kind = .snapshot
              ∧ x.body.take 2 = [byteOf j.val, 1])
          ∧ t.table = s.table ∧ t.notices = s.notices)
      ∧ ended j (s.takeTableReport (.admitResult false)))
    ∧ (∀ effect, (∀ j, s.ctrl.donor ≠ .admitting j) →
      s.takeTableReport (.admitResult effect) = s)
    ∧ (s.CanDetach → Detached .evicted s (s.takeTableReport (.ownRemoved .evicted))
      ∧ Detached .left s (s.takeTableReport (.ownRemoved .left)))

/-- What Replica.apply, which an application and a replay step run, does with a CLAIM frame of
station s: a body of fewer than three characters changes only TSEQ and reports nothing; a resource
above 63 or a record above 31 is refused UNDEFINED. Otherwise, for resource r and record k and a
queue r whose grants agree with the grant rule: with limit 1 to 16, no entry of s and k in any
queue, fewer than 128 entries and, for no-wait, a grant at once, the entry is appended to queue r,
granted exactly when the grant-on-insertion test holds, every other entry and queue unchanged, and
the insertion is reported; else only TSEQ changes, and the refusal reported is UNDEFINED, DUPLICATE,
FULL or BUSY by the first check that fails. A report is made for the own station only, with the
frame's resource and record. (R15, R16, R17, R12, R13, R23) -/
def Obligations.ClaimApplied : Prop :=
  ∀ (own s : Station) (f : Frame) (t : Replica), f.known = some (.claim, s) →
    (f.body.length < 3 → t.apply own f = ({ t with tseq := t.tseq + 1 }, []))
    ∧ ∀ (rc kc flags : Byte) (more : List Byte), f.body = rc :: kc :: flags :: more →
      let report (news : ClaimNews) : List TableReport :=
        if s = own then [.claim rc kc news] else []
      let refused (o : ClaimOutcome) : Replica × List TableReport :=
        ({ t with tseq := t.tseq + 1 }, report (.refused o))
      ((63 < rc.toNat ∨ 31 < kc.toNat) → t.apply own f = refused .refusedUndefined)
      ∧ ∀ (r : Resource) (k : RecordIndex), r.val = rc.toNat → k.val = kc.toNat →
        QueueGranted t.limits[r] t.queues[r] →
        let m : Mode := if flags.getLsbD 0 then .exclusive else .shared
        let now := grantOnInsertion t.limits[r] t.queues[r] m
        let limited := 1 ≤ t.limits[r] ∧ t.limits[r] ≤ 16
        let held := ∃ q : Resource, ∃ e ∈ t.queues[q], e.station = s ∧ e.record = k
        let used := (t.queues.toList.map List.length).sum
        (limited → ¬ held → used < 128 → (flags.getLsbD 1 = false ∨ now = true) →
          t.apply own f =
            ({ t with tseq := t.tseq + 1,
                      queues := t.queues.set r (t.queues[r] ++
                        [{ station := s, record := k, mode := m, granted := now }]) },
              report (if now then .insertedGranted else .insertedWaiting)))
        ∧ (¬ limited → t.apply own f = refused .refusedUndefined)
        ∧ (limited → held → t.apply own f = refused .refusedDuplicate)
        ∧ (limited → ¬ held → 128 ≤ used → t.apply own f = refused .refusedFull)
        ∧ (limited → ¬ held → used < 128 → flags.getLsbD 1 = true → now = false →
            t.apply own f = refused .refusedBusy)

/-- A recomputation of a queue's grants keeps its entries in order and grants, under a limit of 1 or
more, the head and every entry below the limit that only SHARED ones stand before. What
Replica.apply does with a DROP frame of station s: a body of fewer than two characters changes only
TSEQ and reports nothing. With an entry of s and record k in queue r, that queue loses exactly those
entries, has the grants of the rest recomputed, and REMOVED is reported for the own station, then
PROMOTED for each entry of the own station that stood WAITING and is GRANTED now, in queue order;
with none, a resource above 63 or a record above 31 among the causes, only TSEQ changes and DROP-NO-
ENTRY is reported for the own station. No other queue changes. What Replica.apply does with an
EVICT, which names a station in its first body character, and with a LEAVE, which names its sender:
for a roster member other than the own station, it goes out of the roster with the others in order,
every entry of it out of every queue, each queue that lost one has its grants recomputed, and the
removal is reported, then PROMOTED for each entry of the own station that stood WAITING and is
GRANTED now, by ascending resource and in queue order; for a station outside the roster only TSEQ
changes; for the own station the replica is ABSENT and the own removal is reported. An ADMIT of a
station outside a roster of fewer than 32 appends it and reports it; otherwise only TSEQ changes;
the own ADMIT's result is reported after that. An EVICT or ADMIT with an empty body changes only
TSEQ, and one that names a station above 31 has no effect. (R11, R12, R15, R18, R23, R24, R19, R20,
R21, R22) -/
def Obligations.DropAndMembershipApplied : Prop :=
  (
    (∀ (limit : Nat) (q : List Entry), 1 ≤ limit →
      ((regrant limit q).map fun e => (e.station, e.record, e.mode))
          = (q.map fun e => (e.station, e.record, e.mode))
        ∧ ∀ i e, (regrant limit q)[i]? = some e →
          (e.granted = true ↔ i = 0 ∨ i < limit ∧ ∀ x ∈ q.take (i + 1), x.mode = .shared))
    ∧ ∀ (own s : Station) (f : Frame) (t : Replica), f.known = some (.drop, s) →
      let promoted (r : Resource) (new : List Entry) : List TableReport :=
        (new.filter fun e => decide (e.station = own) && e.granted
          && t.queues[r].any fun x => decide (x.station = own) && decide (x.record = e.record)
              && !x.granted).map fun e => .claim (byteOf r.val) (byteOf e.record.val) .promoted
      (f.body.length < 2 → t.apply own f = ({ t with tseq := t.tseq + 1 }, []))
      ∧ ∀ (rc kc : Byte) (more : List Byte), f.body = rc :: kc :: more →
        let report (news : ClaimNews) : List TableReport :=
          if s = own then [.claim rc kc news] else []
        let absent : Replica × List TableReport :=
          ({ t with tseq := t.tseq + 1 }, report .dropNoEntry)
        ((63 < rc.toNat ∨ 31 < kc.toNat) → t.apply own f = absent)
        ∧ ∀ (r : Resource) (k : RecordIndex), r.val = rc.toNat → k.val = kc.toNat →
          let new := regrant t.limits[r]
            (t.queues[r].filter fun e => !(decide (e.station = s) && decide (e.record = k)))
          ((∃ e ∈ t.queues[r], e.station = s ∧ e.record = k) → t.apply own f =
            ({ t with tseq := t.tseq + 1, queues := t.queues.set r new },
              report .removed ++ promoted r new))
          ∧ ((∀ e ∈ t.queues[r], e.station = s → e.record ≠ k) → t.apply own f = absent))
    ∧ (
    ∀ (own s : Station) (f : Frame) (t : Replica),
      let step : Replica := { t with tseq := t.tseq + 1 }
      let promoted (r : Resource) (new : List Entry) : List TableReport :=
        (new.filter fun e => decide (e.station = own) && e.granted
          && t.queues[r].any fun x => decide (x.station = own) && decide (x.record = e.record)
              && !x.granted).map fun e => .claim (byteOf r.val) (byteOf e.record.val) .promoted
      let removal (x : Station) (how : Removal) : Replica × List TableReport :=
        let new (r : Resource) : List Entry :=
          if t.queues[r].any (fun e => decide (e.station = x)) then
            regrant t.limits[r] (t.queues[r].filter fun e => decide (e.station ≠ x))
          else t.queues[r]
        if x = own then (.absent, [.ownRemoved how])
        else if x ∈ t.roster then
          ({ step with roster := t.roster.filter (fun y => decide (y ≠ x)),
                       queues := Vector.ofFn new },
            .memberRemoved x how :: (List.finRange 64).flatMap fun r => promoted r (new r))
        else (step, [])
      let result (effect : Bool) : List TableReport := if s = own then [.admitResult effect] else []
      (f.known = some (.leave, s) → t.apply own f = removal s .left)
      ∧ (f.known = some (.evict, s) →
        (f.body = [] → t.apply own f = (step, []))
        ∧ ∀ c more, f.body = c :: more →
          (31 < c.toNat → t.apply own f = (step, []))
          ∧ ∀ x : Station, x.val = c.toNat → t.apply own f = removal x .evicted)
      ∧ (f.known = some (.admission, s) →
        (f.body = [] → t.apply own f = (step, []))
        ∧ ∀ c more, f.body = c :: more →
          (31 < c.toNat → t.apply own f = (step, result false))
          ∧ ∀ j : Station, j.val = c.toNat →
            (j ∉ t.roster → t.roster.length < 32 → t.apply own f =
              ({ step with roster := t.roster ++ [j] }, .memberAdded j :: result true))
            ∧ (j ∈ t.roster ∨ 32 ≤ t.roster.length → t.apply own f = (step, result false))))

/-- For a queue whose grants agree with R11 under a limit of 1 or more: the test holds exactly when
the queue is empty, or the mode is SHARED, every entry is SHARED and GRANTED and the queue is
shorter than the limit; and it holds exactly when the entry appended is granted by the
recomputation. (R13) -/
def Obligations.NoWaitTestAgreesWithGrantRule : Prop :=
  ∀ (limit : Nat) (q : List Entry) (e : Entry), 1 ≤ limit → QueueGranted limit q →
    (grantOnInsertion limit q e.mode = true ↔ q = []
      ∨ e.mode = .shared ∧ (∀ x ∈ q, x.mode = .shared ∧ x.granted = true) ∧ q.length < limit)
    ∧ (regrant limit (q ++ [e])).getLast?.map Entry.granted
        = some (grantOnInsertion limit q e.mode)

/-- In a queue whose grants agree with R11 no WAITING entry stands before a GRANTED one, an
EXCLUSIVE granted entry is the only one, and at most the limit is granted when the limit is 1 or
more; and recomputing after an insertion at the tail or after removing entries keeps every remaining
granted entry granted. (R11, R12) -/
def Obligations.GrantedStaysGranted : Prop :=
  ∀ (limit : Nat) (q : List Entry), 1 ≤ limit → QueueGranted limit q →
    (∀ before e after, q = before ++ e :: after → e.granted = true →
      (∀ x ∈ before, x.granted = true ∧ x.mode = .shared)
        ∧ (e.mode = .exclusive → before = [] ∧ ∀ x ∈ after, x.granted = false))
    ∧ q.countP Entry.granted ≤ limit
    ∧ (∀ e : Entry, ∃ g, regrant limit (q ++ [e]) = q ++ [{ e with granted := g }])
    ∧ ∀ keep : Entry → Bool, ∀ e ∈ q, keep e = true → e.granted = true →
        e ∈ regrant limit (q.filter keep)

/-- The oldest report to the claim unit, which is the one it takes (log entry 39), being ACCEPTED
for a CLAIM or DROP frame of record k: the report is taken, the record's frame mark is cleared when
it names that frame and nothing else of the record changes, and in CATCHUP, MEMBER and LEAVING the
presence timer restarts (log entries 12 and 31). The oldest report on the path being WITHDRAWN (log
entry 39): for a CLAIM of a QUEUED record with frame mark CLAIM and a cancel-owed reason, the record
is DONE with CANCELLED or TIMED-OUT by the reason, its mark NONE, and the change is posted; for an
ANNOUNCE or a JOIN-ASK the report is taken and nothing else changes; for the EVICT in hand, none is
in hand any more, or the head of the eviction list is; for a SNAPSHOT part nothing changes but the
model's count of the reports still to come for parts of ended donations (log entry 37). (R76, R155,
R132, R75, R79, R121, R162, R139, R111, R116) -/
def Obligations.ClaimUnitAndWithdrawnReports : Prop :=
  (
    ∀ (before after : List TxReport) (kind : FrameKind) (k : RecordIndex) (s : State),
      s.tx.reports = before ++ .accepted kind (.claimUnit k) :: after →
      (∀ x ∈ before, x.path = .controller) → (kind = .claim ∨ kind = .drop) →
      exec (.acceptedReport .claimUnit) s = .next
        { s with
          tx := { s.tx with reports := before ++ after },
          ctrl := if s.ctrl.station.inGroup
            then { s.ctrl with presence := .running s.presenceInterval } else s.ctrl,
          records := s.records.set k { s.records[k] with mark :=
            if s.records[k].mark = (if kind = .drop then .drop else .claim) then .none
            else s.records[k].mark } })
    ∧ (
    ∀ (before after : List TxReport) (s : State),
      (∀ (k : RecordIndex) (reason : CancelReason),
        s.tx.reports = before ++ .withdrawn .claim (.claimUnit k) :: after →
        (∀ x ∈ before, x.path = .controller) → s.records[k].state = .queued →
        s.records[k].mark = .claim → s.records[k].cancelOwed = some reason →
        exec (.withdrawnReport .claimUnit) s = .next
          { s with
            tx := { s.tx with reports := before ++ after },
            records := s.records.set k { s.records[k] with
              state := .done, waitTimer := none, cancelOwed := none, dropReason := none,
              owedDrop := false, mark := .none,
              outcome := some (if reason = .withdrawn then .cancelled else .timedOut) },
            notices := s.notices.post (.slot s.records[k].slot) (byteOf k.val) })
      ∧ (∀ kind, kind = .announce ∨ kind = .joinAsk →
        s.tx.reports = before ++ .withdrawn kind .controller :: after →
        (∀ x ∈ before, x.path = .claimUnit) →
        exec (.withdrawnReport .controller) s = .next
          { s with tx := { s.tx with reports := before ++ after } })
      ∧ (s.tx.reports = before ++ .withdrawn .snapshot .controller :: after →
        (∀ x ∈ before, x.path = .claimUnit) →
        exec (.withdrawnReport .controller) s = .next
          { s with tx := { s.tx with reports := before ++ after },
                   ctrl := { s.ctrl with staleParts := s.ctrl.staleParts - 1 } })
      ∧ (∀ x phase, s.tx.reports = before ++ .withdrawn .evict .controller :: after →
        (∀ x ∈ before, x.path = .claimUnit) → s.ctrl.evictInHand = some ⟨x, phase⟩ →
        ∃ t, exec (.withdrawnReport .controller) s = .next t
          ∧ t.ctrl.evictions = s.ctrl.evictions
          ∧ t.ctrl.evictInHand.map EvictInHand.target = s.ctrl.evictions.head?
          ∧ t.table = s.table ∧ t.records.map ClaimRecord.state = s.records.map ClaimRecord.state))

/-- The oldest report to the controller (log entry 39) being ACCEPTED: for the ANNOUNCE in FOUNDING
with the replica ABSENT the station founds its group and is MEMBER of it: a PRESENT replica with the
asked tag, the own P, k and limits, the own station as roster, no entry and TSEQ 0, the founding
counter raised modulo 8, the working E and the presence timer by that P and k, and JOINED posted;
for a JOIN-ASK in ASKING the ask timer starts at the working E (that a report for a JOIN-ASK of an
earlier asked tag starts it too is the model's choice, log entry 38); for a PRESENCE, an ADMIT, and
in CATCHUP, MEMBER and LEAVING a JOIN-ASK or the ANNOUNCE that has founded the group, only the
presence timer restarts (that it does for that ANNOUNCE, of which R110 says no effect, is log entry
45, DEDUCED); for the LEAVE in LEAVING the station detaches with LEFT to OFFLINE; for the EVICT in
hand its target leaves the eviction list; for a SNAPSHOT in DONATING the next part is owed or
queued, or, after the last, the donation ends and the next listed station is admitted (in MEMBER);
in another donor phase, and where a report for a part of an ended donation is still to come, which
is then the one taken, only the presence timer restarts and the count of such reports falls (the
count is the model's own, log entry 37, DEDUCED); for the LEAVE of a failed catch-up the station
detaches with CATCHUP-FAILED, or LEFT under a leave mark, and in CATCHUP without a failure only the
presence timer restarts. (R76, R110, R113, R120, R121, R129, R132, R139, R142, R28, R105) -/
def Obligations.AcceptedReportToController : Prop :=
  ∀ (before after : List TxReport) (kind : FrameKind) (s : State),
    s.tx.reports = before ++ .accepted kind .controller :: after →
    (∀ x ∈ before, x.path = .claimUnit) →
    (kind = .announce → s.ctrl.station = .founding → s.table.condition = .absent →
      ∃ t, exec (.acceptedReport .controller) s = .next t ∧ t.ctrl.station = .member
        ∧ t.table = { condition := .present, tag := s.ctrl.askedTag, p := s.port.store.p,
                        k := s.port.store.k, limits := s.port.store.limits,
                        roster := [s.port.station], queues := Vector.replicate 64 [], tseq := 0 }
        ∧ t.ctrl.founding = s.ctrl.founding + 1
        ∧ t.ctrl.workingE = s.port.store.k * (s.port.store.p * 10)
        ∧ t.ctrl.presence = .running (s.port.store.p * 10)
        ∧ t.notices = s.notices.post .joined s.ctrl.askedTag
        ∧ t.rx = s.rx ∧ t.line = s.line ∧ t.port = s.port)
    ∧ (kind = .joinAsk → s.ctrl.station = .asking →
      exec (.acceptedReport .controller) s = .next
        { s with tx := { s.tx with reports := before ++ after },
                 ctrl := { s.ctrl with ask := .running s.ctrl.workingE } })
    ∧ (kind = .presence ∨ kind = .admission ∨ kind = .announce ∨ kind = .joinAsk →
      s.ctrl.station.inGroup = true →
      exec (.acceptedReport .controller) s = .next
        { s with tx := { s.tx with reports := before ++ after },
                 ctrl := { s.ctrl with presence := .running s.presenceInterval } })
    ∧ (kind = .leave → s.ctrl.station = .leaving →
      ∃ t, exec (.acceptedReport .controller) s = .next t ∧ Detached .left s t
        ∧ t.ctrl.station = .offline)
    ∧ (∀ x phase, kind = .evict → s.ctrl.station.inGroup = true →
      s.ctrl.evictInHand = some ⟨x, phase⟩ → ∃ t, exec (.acceptedReport .controller) s = .next t
        ∧ t.ctrl.evictions = s.ctrl.evictions.filter (fun y => decide (y ≠ x))
        ∧ t.ctrl.evictInHand.map EvictInHand.target
            = (s.ctrl.evictions.filter (fun y => decide (y ≠ x))).head?
        ∧ t.table = s.table ∧ t.notices = s.notices ∧ t.rx = s.rx)
    ∧ (∀ j, kind = .snapshot → s.ctrl.station.inGroup = true → s.ctrl.donor = .donating j →
      s.ctrl.staleParts = 0 →
      (s.ctrl.snapshot.part < s.ctrl.snapshot.partCount →
        ∃ t, exec (.acceptedReport .controller) s = .next t
        ∧ t.ctrl.snapshot = { s.ctrl.snapshot with part := s.ctrl.snapshot.part + 1 }
        ∧ t.ctrl.donor = .donating j ∧ t.ctrl.joinAsks = s.ctrl.joinAsks
        ∧ (t.ctrl.owed.snapshot = true ∨ ∃ e ∈ t.tx.queue, e.kind = .snapshot
            ∧ e.body.take 2 = [byteOf j.val, byteOf (s.ctrl.snapshot.part + 1)])
        ∧ t.ctrl.presence = .running s.presenceInterval
        ∧ t.table = s.table ∧ t.notices = s.notices ∧ t.rx = s.rx)
      ∧ (s.ctrl.snapshot.partCount ≤ s.ctrl.snapshot.part →
        ∃ t, exec (.acceptedReport .controller) s = .next t
        ∧ t.ctrl.snapshot = .empty ∧ t.ctrl.owed.snapshot = false
        ∧ (∀ x ∈ t.tx.queue, x.kind = .snapshot → x.owner = .controller →
            x.state = .active ∧ x.cancel = true)
        ∧ t.ctrl.joinAsks = s.ctrl.joinAsks.filter (fun x => decide (x ≠ j))
        ∧ t.ctrl.donor = (match s.ctrl.joinAsks.filter (fun x => decide (x ≠ j)) with
          | [] => .none
          | next :: _ => if s.ctrl.station = .member then .admitting next else .none)
        ∧ t.ctrl.presence = .running s.presenceInterval
        ∧ t.table = s.table ∧ t.notices = s.notices ∧ t.rx = s.rx))
    ∧ (kind = .snapshot → (0 < s.ctrl.staleParts ∨ ∀ j, s.ctrl.donor ≠ .donating j) →
      s.ctrl.station.inGroup = true → exec (.acceptedReport .controller) s = .next
        { s with tx := { s.tx with reports := before ++ after },
                 ctrl := { s.ctrl with presence := .running s.presenceInterval,
                                       staleParts := s.ctrl.staleParts - 1 } })
    ∧ (kind = .leave → s.ctrl.station = .catchup → s.ctrl.failed = false →
      exec (.acceptedReport .controller) s = .next
        { s with tx := { s.tx with reports := before ++ after },
                 ctrl := { s.ctrl with presence := .running s.presenceInterval } })
    ∧ (kind = .leave → s.ctrl.station = .catchup → s.ctrl.failed = true →
      ∃ t, exec (.acceptedReport .controller) s = .next t
        ∧ Detached (if s.ctrl.leaveMark then .left else .catchupFailed) s t)

/-- In CATCHUP after install, not failed, with a known frame at the head of the pending-apply queue:
the frame leaves the queue and the count falls by 1. From a station outside the roster it is set
aside, and when the queue is then empty the station is MEMBER and JOINED is posted, and behind it
CONFIG-ADOPTED with detail 0 exactly when the installed configuration differs from the store; with a
TSEQ that differs from the replica's the catch-up has failed and the queue is empty. From a roster
member with that TSEQ a sequenced frame is applied: the replica is the one Replica.apply gives, with
TSEQ one more, the own expected TSEQ stays as it was, and the station is MEMBER with JOINED and,
where the configuration differs, CONFIG-ADOPTED posted behind what the application's reports post
when the queue is then empty, and in CATCHUP with the count lower by 1 when it is not; an EVICT
naming the own station detaches it with EVICTED, and its own LEAVE with LEFT. (R72, R126, R127,
R128, R140) -/
def Obligations.ReplayStepTaken : Prop :=
  ∀ (f : Frame) (rest : List Frame) (kind : FrameKind) (sender : Station) (s : State),
    s.ctrl.station = .catchup → s.table.condition = .present → s.ctrl.failed = false →
    s.ctrl.pendingApply = f :: rest → f.known = some (kind, sender) →
    let caughtUp (q : NoticeQueue) : NoticeQueue :=
      if s.ctrl.configDiffers then (q.post .joined s.table.tag).post .configAdopted 0
      else q.post .joined s.table.tag
    (sender ∉ s.table.roster → rest ≠ [] → exec .replayStep s = .next
      { s with ctrl := { s.ctrl with pendingApply := rest,
                                     catchupCount := s.ctrl.catchupCount - 1 } })
    ∧ (sender ∉ s.table.roster → rest = [] → ∃ t, exec .replayStep s = .next t
        ∧ t.ctrl.station = .member ∧ t.ctrl.catchupCount = 0 ∧ t.ctrl.pendingApply = []
        ∧ t.table = s.table ∧ t.notices = caughtUp s.notices)
    ∧ (sender ∈ s.table.roster → f.tseq ≠ s.table.tseq → ∃ t, exec .replayStep s = .next t
        ∧ t.ctrl.station = .catchup ∧ t.ctrl.failed = true ∧ t.ctrl.pendingApply = []
        ∧ t.ctrl.catchupCount = s.ctrl.catchupCount - 1 ∧ t.table = s.table)
    ∧ (sender ∈ s.table.roster → f.tseq = s.table.tseq → kind.sequenced = true →
      ¬ (kind = .leave ∧ sender = s.port.station) →
      ¬ (kind = .evict ∧ ∃ x more, f.body = x :: more ∧ x.toNat = s.port.station.val) →
      ∃ t, exec .replayStep s = .next t
        ∧ t.table = (s.table.apply s.port.station f).1 ∧ t.table.tseq = s.table.tseq + 1
        ∧ t.expectedTseq = s.expectedTseq ∧ t.ctrl.pendingApply = rest ∧ t.ctrl.failed = false
        ∧ (rest ≠ [] → t.ctrl.station = .catchup
            ∧ t.ctrl.catchupCount = s.ctrl.catchupCount - 1)
        ∧ (rest = [] → t.ctrl.station = .member ∧ t.ctrl.catchupCount = 0
            ∧ t.notices = caughtUp ((s.table.apply s.port.station f).2.foldl State.takeTableReport
                { s with
                  table := (s.table.apply s.port.station f).1,
                  ctrl := { s.ctrl with pendingApply := rest,
                                        catchupCount := s.ctrl.catchupCount - 1 } }).notices)
        ∧ t.rx = s.rx ∧ t.line = s.line ∧ t.port = s.port)
    ∧ (sender ∈ s.table.roster → f.tseq = s.table.tseq →
      (kind = .leave → sender = s.port.station →
        ∃ t, exec .replayStep s = .next t ∧ Detached .left s t)
      ∧ (∀ x more, kind = .evict → f.body = x :: more → x.toNat = s.port.station.val →
        ∃ t, exec .replayStep s = .next t ∧ Detached .evicted s t))

/-- A listen timer that has run out takes the station to FOUNDING with asked tag station x 8 +
founding counter and an ANNOUNCE owed or queued when no tag was heard, and to ASKING for the lowest
tag heard otherwise. An ask timer that has run out at count 1 or 2 raises the count with a JOIN-ASK
owed or queued, and at count 3 ends ASKING: DETACHED with ASK-FAILED, HOLDOFF with the holdoff timer
started, the queue flushed, the receiver cleared, and the controller at its reset values but for the
founding counter, the line-fault flag and the working E, which is the own one; an own frame on the
line in CONTEND or SENDING is withdrawn with a break from the next bit on, and nothing else changes.
That the reports not yet taken by their owners go with the flush is log entry 8 (DEDUCED, unsafe),
that the bit in progress keeps its level until the break is log entry 14 (DEDUCED), and that the
note of R125 is then false is log entry 40 (DESIGN CHOICE). (R108, R109, R113, R114, R80, R102,
R104, R131, R147) -/
def Obligations.JoiningTimersExpire : Prop :=
  ∀ s : State,
    (s.ctrl.station = .listening → s.ctrl.listen = .running 0 →
      (s.ctrl.lowestTag = none → ∃ t, exec .listenTimerExpiry s = .next t
        ∧ t.ctrl.station = .founding ∧ t.ctrl.listen = .stopped
        ∧ t.ctrl.askedTag.toNat = s.port.station.val * 8 + s.ctrl.founding.val
        ∧ (t.ctrl.owed.announce = true ∨ ∃ e ∈ t.tx.queue, e.kind = .announce
            ∧ e.body = [byteOf s.port.store.p, byteOf s.port.store.k])
        ∧ t.table = s.table ∧ t.notices = s.notices ∧ t.rx = s.rx ∧ t.line = s.line)
      ∧ (∀ low, s.ctrl.lowestTag = some low → ∃ t, exec .listenTimerExpiry s = .next t
        ∧ t.ctrl.station = .asking ∧ t.ctrl.listen = .stopped ∧ t.ctrl.askedTag = low
        ∧ t.ctrl.askCount = 1 ∧ t.ctrl.ask = .stopped
        ∧ t.ctrl.workingE = s.ctrl.learnedE.getD (s.port.store.k * (s.port.store.p * 10))
        ∧ (t.ctrl.owed.joinAsk = true ∨ ∃ e ∈ t.tx.queue, e.kind = .joinAsk ∧ e.body = [])
        ∧ t.table = s.table ∧ t.notices = s.notices ∧ t.rx = s.rx ∧ t.line = s.line))
    ∧ (s.ctrl.station = .asking → s.ctrl.ask = .running 0 →
      (s.ctrl.askCount < 3 → ∃ t, exec .askTimerExpiry s = .next t
        ∧ t.ctrl.station = .asking ∧ t.ctrl.askCount = s.ctrl.askCount + 1
        ∧ t.ctrl.ask = .stopped
        ∧ (t.ctrl.owed.joinAsk = true ∨ ∃ e ∈ t.tx.queue, e.kind = .joinAsk)
        ∧ t.table = s.table ∧ t.notices = s.notices ∧ t.rx = s.rx ∧ t.line = s.line)
      ∧ (3 ≤ s.ctrl.askCount → exec .askTimerExpiry s = .next
        { s with
          line := s.lineFlushed, tx := .empty,
          rx := { s.rx with inbox := [], handoff := none, ownVetoes := 0 },
          ctrl := { Controller.reset with
            station := .holdoff, workingE := s.port.store.k * (s.port.store.p * 10),
            founding := s.ctrl.founding, lineFault := s.ctrl.lineFault,
            holdoff := .running ((2 + s.port.station.val % 8) * (s.port.store.p * 10)),
            lastDetach := some .askFailed },
          notices := s.notices.post .detached 9 }))

/-- In CATCHUP a stall timer that has run out with the failure flag clear is a catch-up failure
(flag set, LEAVE owed or queued, the timer restarted at the working E); with the flag set the
station detaches with CATCHUP-FAILED, or LEFT under a leave mark. A holdoff timer that has run out
takes the station to LISTENING with the listen timer at twice the own E, frozen during a line fault.
A presence timer that has run out in CATCHUP, MEMBER or LEAVING restarts at the interval in force
with a PRESENCE owed or queued. A silence timer that has run out becomes EXPIRED and its station
joins the tail of the eviction list; with no EVICT in hand it becomes the EVICT in hand, and with
one in hand nothing else changes. (R128, R129, R143, R147, R106, R132, R137) -/
def Obligations.ControllerTimersExpire : Prop :=
  (
    ∀ s : State,
      (s.ctrl.station = .catchup → s.ctrl.stall = .running 0 →
        (s.ctrl.failed = false → ∃ t, exec .stallTimerExpiry s = .next t
          ∧ t.ctrl.station = .catchup ∧ t.ctrl.failed = true
          ∧ t.ctrl.stall = .running s.ctrl.workingE
          ∧ (t.ctrl.owed.leave = true ∨ ∃ e ∈ t.tx.queue, e.kind = .leave)
          ∧ t.table = s.table ∧ t.notices = s.notices ∧ t.rx = s.rx ∧ t.line = s.line)
        ∧ (s.ctrl.failed = true → ∃ t, exec .stallTimerExpiry s = .next t
          ∧ Detached (if s.ctrl.leaveMark then .left else .catchupFailed) s t))
      ∧ (s.ctrl.station = .holdoff → s.ctrl.holdoff = .running 0 →
        exec .holdoffTimerExpiry s = .next { s with ctrl := { s.ctrl with
          station := .listening, holdoff := .stopped,
          workingE := s.port.store.k * (s.port.store.p * 10), learnedE := none, lowestTag := none,
          listen := if s.ctrl.lineFault then .frozen (2 * (s.port.store.k * (s.port.store.p * 10)))
            else .running (2 * (s.port.store.k * (s.port.store.p * 10))) } }))
    ∧ (
    ∀ s : State,
      (s.ctrl.station.inGroup = true → s.ctrl.presence = .running 0 →
        ∃ t, exec .presenceTimerExpiry s = .next t
          ∧ t.ctrl.presence = .running s.presenceInterval
          ∧ (t.ctrl.owed.presence = true ∨ ∃ e ∈ t.tx.queue, e.kind = .presence)
          ∧ t.ctrl.station = s.ctrl.station ∧ t.table = s.table ∧ t.notices = s.notices
          ∧ t.rx = s.rx ∧ t.line = s.line)
      ∧ ∀ x : Station, s.ctrl.silence[x] = some (.running 0) →
        (s.ctrl.evictInHand = none → ∃ t, exec (.silenceTimerExpiry x) s = .next t
          ∧ t.ctrl.silence = s.ctrl.silence.set x (some .expired)
          ∧ t.ctrl.evictions = s.ctrl.evictions ++ [x]
          ∧ t.ctrl.evictInHand.map EvictInHand.target = some x
          ∧ t.table = s.table ∧ t.notices = s.notices ∧ t.rx = s.rx ∧ t.line = s.line)
        ∧ (∀ y, s.ctrl.evictInHand = some y → exec (.silenceTimerExpiry x) s = .next
          { s with ctrl := { s.ctrl with silence := s.ctrl.silence.set x (some .expired),
                                         evictions := s.ctrl.evictions ++ [x] } }))

/-- A wait timer that has run out on a WAITING record makes it DROPPING with TIMED-OUT, posted, its
drop owed or queued. On a QUEUED record without a cancel-owed flag: with no frame queued, be its
mark NONE or CLAIM, it keeps QUEUED with cancel-owed TIMED-OUT and mark NONE; with its CLAIM entry
READY it is DONE with TIMED-OUT, posted, the entry gone and its place gone to the owed frames by R67
(State.handOut, of which O22 says what it does); with the entry ACTIVE the cancel mark is set and it
keeps QUEUED with cancel-owed TIMED-OUT. The timer is stopped in every case. (R164, R78, R156, R67)
-/
def Obligations.WaitTimerExpires : Prop :=
  ∀ (k : RecordIndex) (s : State), s.records[k].waitTimer = some 0 →
    (s.records[k].state = .waiting → ∃ t, exec (.waitTimerExpiry k) s = .next t
      ∧ t.records[k].state = .dropping ∧ t.records[k].dropReason = some .timedOut
      ∧ t.records[k].waitTimer = none
      ∧ (t.records[k].owedDrop = true ∨ ∃ e ∈ t.tx.queue, e.kind = .drop ∧ e.owner = .claimUnit k)
      ∧ t.notices = s.notices.post (.slot s.records[k].slot) (byteOf k.val)
      ∧ t.table = s.table ∧ t.rx = s.rx ∧ t.line = s.line)
    ∧ (s.records[k].state = .queued → s.records[k].cancelOwed = none →
      (s.records[k].mark = .none → exec (.waitTimerExpiry k) s = .next
        { s with
          records := s.records.set k
            { s.records[k] with waitTimer := none, cancelOwed := some .timedOut } })
      ∧ (s.records[k].mark = .claim → (∀ e ∈ s.tx.queue, e.owner ≠ .claimUnit k) →
        exec (.waitTimerExpiry k) s = .next
          { s with
            records := s.records.set k
              { s.records[k] with waitTimer := none, cancelOwed := some .timedOut,
                                  mark := .none } })
      ∧ ∀ before e after, s.records[k].mark = .claim → s.tx.queue = before ++ e :: after →
        e.owner = .claimUnit k → (∀ x ∈ before ++ after, x.owner ≠ .claimUnit k) →
        (e.state = .ready →
          let freed := State.handOut { s with
            tx := { s.tx with queue := before ++ after },
            records := s.records.set k { s.records[k] with waitTimer := none } }
          exec (.waitTimerExpiry k) s = .next
            { freed with
              records := freed.records.set k
                { s.records[k] with
                  state := .done, waitTimer := none, cancelOwed := none, dropReason := none,
                  owedDrop := false, outcome := some .timedOut, mark := .none },
              notices := s.notices.post (.slot s.records[k].slot) (byteOf k.val) })
        ∧ (e.state = .active → exec (.waitTimerExpiry k) s = .next
          { s with
            tx := { s.tx with queue := before ++ { e with cancel := true } :: after },
            records := s.records.set k
              { s.records[k] with waitTimer := none, cancelOwed := some .timedOut } }))

/-- From FOUNDING, ASKING, CATCHUP, MEMBER or LEAVING a detach leaves the replica ABSENT, the
transmitter empty, the receiver cleared, the controller at its reset values but for those that R104
and R145 keep, every live record DONE with LOST and every other unchanged but for its frame mark,
the notices that stood kept, with a post to the slot of each live record in ascending index and then
the DETACHED post with the reason, and the station in OFFLINE for LEFT or under a leave mark and in
HOLDOFF otherwise; an own frame on the line in CONTEND or SENDING is withdrawn with a break from the
next bit on, and the line interface is untouched otherwise. That the reports not yet taken by their
owners go with the flush is log entry 8 (DEDUCED, unsafe), that the bit in progress keeps its level
until the break is log entry 14 (DEDUCED), and that the note of R125 is then false is log entry 40
(DESIGN CHOICE). (R145, R146, R147, R169, R152, R177, R80, R102, R104, R31) -/
def Obligations.DetachLeavesAClearedStation : Prop :=
  ∀ (reason : DetachReason) (s : State), s.CanDetach →
    Detached reason s (s.detach reason)
      ∧ (∀ k : RecordIndex, s.records[k].state.live = false →
          (s.detach reason).records[k] = { s.records[k] with mark := .none })
      ∧ (s.detach reason).line = s.lineFlushed

/-- The check register takes each data bit as R42 has it: the feedback is the bit exclusive-ORed
with bit 15, the register shifts towards bit 15, and a feedback of one exclusive-ORs bits 12, 5 and
0; the check is that of the characters' data bits, bit 0 of the first first, from a register of
ones. A frame has the layout of R35, its check over all before it, low half first; a check passes
exactly when the two characters behind characters 1 to 6 + L (1 to 6 for a malformed length) equal
its halves. For every kind, sender, tag, TSEQ and body of at most 24 characters: the characters of
the frame, assembled without marks, have the length of R36, pass the check, and give back the kind,
sender, tag, TSEQ and body; and the bits of every character, read by R52, give its value back. (R34,
R35, R36, R42, R52, R87) -/
def Obligations.FrameReadBackWhole : Prop :=
  (∀ (r : BitVec 16) (b : Bool), checkBit r b =
      if b = r.getLsbD 15 then r <<< 1 else (r <<< 1) ^^^ 0x1021)
    ∧ (∀ chars : List Byte, frameCheck chars =
      (chars.flatMap fun c => (List.range 8).map fun i => c.getLsbD i).foldl checkBit 0xFFFF)
    ∧ (∀ (kind : FrameKind) (sender : Station) (tag : Byte) (tseq : Tseq) (body : List Byte),
      let covered := kind.char :: byteOf sender.val :: tag :: tseq.extractLsb' 0 8
        :: tseq.extractLsb' 8 8 :: byteOf body.length :: body
      frameChars kind sender tag tseq body = covered ++
        [(frameCheck covered).extractLsb' 0 8, (frameCheck covered).extractLsb' 8 8])
    ∧ (∀ (a : Assembly) (l : Byte), (a.chars[5]?).map RxChar.value = some l →
      let n := if l.toNat ≤ 24 then 6 + l.toNat else 6
      let check := frameCheck ((a.chars.take n).map RxChar.value)
      (a.checkPasses = true ↔ (a.chars[n]?).map RxChar.value = some (check.extractLsb' 0 8)
        ∧ (a.chars[n + 1]?).map RxChar.value = some (check.extractLsb' 8 8)))
    ∧ (∀ (kind : FrameKind) (sender : Station) (tag : Byte) (tseq : Tseq) (body : List Byte)
        (missing : Nat → Byte), body.length ≤ 24 →
      let chars := frameChars kind sender tag tseq body
      let a : Assembly := { chars := chars.map fun v =>
                              { value := v, marker := .dominant, noise := false, framing := false,
                                overrun := false },
                            overrun := false }
      chars.length = 8 + body.length ∧ a.short = false ∧ a.checkPasses = true
        ∧ a.frame missing = { kind := kind.char, sender := byteOf sender.val, tag := tag,
                              tseq := tseq, body := body }
        ∧ (a.frame missing).known = some (kind, sender))
    ∧ ∀ (value : Byte) (first : Bool),
        dataValue ((List.range 11).map (charBit value first)) = value

/-- For every replica that keeps the laws of a PRESENT replica for its own station, and a joiner in
its roster other than that station with no entry in any queue: the parts of its image put together
give the image, and a PENDING joiner at the same TSEQ and tag installs it into a replica equal to
the donor's. An install request is refused where the replica is not PENDING, where the image TSEQ is
not the replica's, where the length of the image is not 68 + n + 3e for the n and e it holds or it
is too short to hold them, and where P, k, a definition, the roster count, a roster number, the
entry count or an entry's resource or station is out of its range, the roster names a station twice
or leaves the own station out, an entry's resource has definition 0, its station is not in the
roster or is the own one, or two entries share station and record index. The record index is the 5
bits of R46, so none is out of range; that the two zero bits beside it are not read is log entry 23,
DEDUCED. (R22, R29, R30, R46, R47) -/
def Obligations.ImageReadBackWhole : Prop :=
  (
    ∀ (own joiner : Station) (t : Replica), t.condition = .present → t.PresentLaw own →
      joiner ∈ t.roster → (∀ r : Resource, ∀ e ∈ t.queues[r], e.station ≠ joiner) →
      ((List.range (imagePartCount t.image)).flatMap fun p => imagePart t.image (p + 1)) = t.image
        ∧ (4 ≤ imagePartCount t.image ∧ imagePartCount t.image ≤ 26)
        ∧ Replica.install joiner t.image t.tseq
            { Replica.absent with condition := .pending, tag := t.tag, roster := [joiner],
                                  tseq := t.tseq } = some t)
    ∧ (
    ∀ (own : Station) (image : List Byte) (tseq : Tseq) (t : Replica),
      let refused := Replica.install own image tseq t = none
      (t.condition ≠ .pending → refused) ∧ (tseq ≠ t.tseq → refused)
        ∧ ((∀ n e : Byte, image[66]? = some n → image[67 + n.toNat]? = some e →
            image.length ≠ 68 + n.toNat + 3 * e.toNat) → refused)
        ∧ (∀ p, image[0]? = some p → p.toNat < 1 ∨ 255 < p.toNat → refused)
        ∧ (∀ k, image[1]? = some k → k.toNat < 3 ∨ 15 < k.toNat → refused)
        ∧ (∀ (r : Resource) (limit : Byte), image[2 + r.val]? = some limit → 16 < limit.toNat →
            refused)
        ∧ ∀ n, image[66]? = some n →
          (n.toNat < 1 ∨ 32 < n.toNat → refused)
          ∧ (∀ (i : Nat) (x : Byte), i < n.toNat → image[67 + i]? = some x → 31 < x.toNat →
              refused)
          ∧ (∀ (i j : Nat) (x : Byte), i < j → j < n.toNat → image[67 + i]? = some x →
              image[67 + j]? = some x → refused)
          ∧ ((∀ i, i < n.toNat → image[67 + i]? ≠ some (byteOf own.val)) → refused)
          ∧ ∀ e, image[67 + n.toNat]? = some e →
            let entry (i : Nat) : Nat := 68 + n.toNat + 3 * i
            (128 < e.toNat → refused)
            ∧ (∀ (i : Nat) (r x : Byte), i < e.toNat → image[entry i]? = some r →
                image[entry i + 1]? = some x →
                63 < r.toNat ∨ 31 < x.toNat ∨ image[2 + r.toNat]? = some 0
                  ∨ (∀ m, m < n.toNat → image[67 + m]? ≠ some x) ∨ x.toNat = own.val → refused)
            ∧ ∀ (i j : Nat) (x a b : Byte), i < j → j < e.toNat →
                image[entry i + 1]? = some x → image[entry j + 1]? = some x →
                image[entry i + 2]? = some a → image[entry j + 2]? = some b →
                a.toNat % 32 = b.toNat % 32 → refused)

/-- If ATTN# is asserted exactly while the list is not empty, every subject has at most one notice,
the counts are 1 to 255 and a saturation mark stands only at 255, then so it is after every step.
(R170, R171, R174, R176) -/
def Obligations.NoticeLawKept : Prop :=
  ∀ s t : State, s.notices.Law → step s = .next t → t.notices.Law

/-- If the queue holds at most 8 frames, at most one ACTIVE, one EVICT, one PRESENCE and one frame
for any record, the attempt counter is below 16, and no entry is ACTIVE while the report of a start
waits, then so it is after every step. And if, with fewer than 8 entries queued, no frame is owed
that the gate of R68 and the guards of R69 admit, then so it is after every step (R67). (R64, R66,
R67, R68, R69, R70, R71, R77) -/
def Obligations.TransmitQueueLawKept : Prop :=
  (∀ s t : State, s.tx.Law → step s = .next t → t.tx.Law)
    ∧ ∀ s t : State, s.OwedLaw → step s = .next t → t.OwedLaw

/-- If the stream holds at most 5 characters, the accumulator is below 8, the dominant run at most
1024, the frame in progress has 1 to 32 characters, the inbox at most 2 frames, the own-veto counter
below 8, the store in its ranges, and the pending-apply queue, catch-up count and join-ask list as
R117, R123 and R128 have them, then so it is after every step. (R49, R61, R84, R85, R91, R92, R117,
R123, R128, R186) -/
def Obligations.BoundsKept : Prop :=
  ∀ s t : State, s.BoundsLaw → step s = .next t → t.BoundsLaw

/-- If the replica keeps the laws of its condition (R1, R3 to R5, R8, R11), its condition agrees
with the station state, the frame in the handoff slot is sequenced and from a roster member, claims
are live only in MEMBER and LEAVING, a drop is owed only for a DROPPING record, and each GRANTED
record has its GRANTED entry, then so it is after every step. (R1, R3, R4, R5, R8, R11, R103, R150,
R169) -/
def Obligations.GroupLawKept : Prop :=
  ∀ s t : State, s.GroupLaw → step s = .next t → t.GroupLaw

/-- If, beside the group laws, silence timers are kept for exactly the roster members other than the
own station and the eviction list holds distinct stations whose timers are EXPIRED, then so it is
after every step. (R134, R137, R138, R139) -/
def Obligations.SilenceLawKept : Prop :=
  ∀ s t : State, s.GroupLaw → s.SilenceLaw → step s = .next t → t.SilenceLaw

/-- The notice law, the two transmit queue laws, the bounds, the group law and the silence law hold
at State.reset. (R26, R65, R67, R83, R104, R131, R151, R170, R186) -/
def Obligations.LawsHoldAtReset : Prop :=
  State.reset.notices.Law ∧ State.reset.tx.Law ∧ State.reset.OwedLaw ∧ State.reset.BoundsLaw
    ∧ State.reset.GroupLaw ∧ State.reset.SilenceLaw

end
end

