-- ==== Sys2Proof/Laws/State.lean ====
section
/-! SUPPORT. What each update of one block of State writes and what it leaves, field by field. -/

namespace Sys2Proof.Machine

variable (s : State)


/-! ## mapLine -/

@[simp] theorem State.mapLine_pending (f : LineIf → LineIf) : (s.mapLine f).pending = s.pending := rfl
@[simp] theorem State.mapLine_line (f : LineIf → LineIf) : (s.mapLine f).line = f s.line := rfl
@[simp] theorem State.mapLine_tx (f : LineIf → LineIf) : (s.mapLine f).tx = s.tx := rfl
@[simp] theorem State.mapLine_rx (f : LineIf → LineIf) : (s.mapLine f).rx = s.rx := rfl
@[simp] theorem State.mapLine_table (f : LineIf → LineIf) : (s.mapLine f).table = s.table := rfl
@[simp] theorem State.mapLine_ctrl (f : LineIf → LineIf) : (s.mapLine f).ctrl = s.ctrl := rfl
@[simp] theorem State.mapLine_records (f : LineIf → LineIf) : (s.mapLine f).records = s.records := rfl
@[simp] theorem State.mapLine_notices (f : LineIf → LineIf) : (s.mapLine f).notices = s.notices := rfl
@[simp] theorem State.mapLine_port (f : LineIf → LineIf) : (s.mapLine f).port = s.port := rfl
@[simp] theorem State.mapLine_timebase (f : LineIf → LineIf) : (s.mapLine f).timebase = s.timebase := rfl
@[simp] theorem State.mapLine_lineIn (f : LineIf → LineIf) : (s.mapLine f).lineIn = s.lineIn := rfl
@[simp] theorem State.mapLine_freeCount (f : LineIf → LineIf) : (s.mapLine f).freeCount = s.freeCount := rfl

/-! ## mapTx -/

@[simp] theorem State.mapTx_pending (f : Transmitter → Transmitter) : (s.mapTx f).pending = s.pending := rfl
@[simp] theorem State.mapTx_line (f : Transmitter → Transmitter) : (s.mapTx f).line = s.line := rfl
@[simp] theorem State.mapTx_tx (f : Transmitter → Transmitter) : (s.mapTx f).tx = f s.tx := rfl
@[simp] theorem State.mapTx_rx (f : Transmitter → Transmitter) : (s.mapTx f).rx = s.rx := rfl
@[simp] theorem State.mapTx_table (f : Transmitter → Transmitter) : (s.mapTx f).table = s.table := rfl
@[simp] theorem State.mapTx_ctrl (f : Transmitter → Transmitter) : (s.mapTx f).ctrl = s.ctrl := rfl
@[simp] theorem State.mapTx_records (f : Transmitter → Transmitter) : (s.mapTx f).records = s.records := rfl
@[simp] theorem State.mapTx_notices (f : Transmitter → Transmitter) : (s.mapTx f).notices = s.notices := rfl
@[simp] theorem State.mapTx_port (f : Transmitter → Transmitter) : (s.mapTx f).port = s.port := rfl
@[simp] theorem State.mapTx_timebase (f : Transmitter → Transmitter) : (s.mapTx f).timebase = s.timebase := rfl
@[simp] theorem State.mapTx_lineIn (f : Transmitter → Transmitter) : (s.mapTx f).lineIn = s.lineIn := rfl
@[simp] theorem State.mapTx_freeCount (f : Transmitter → Transmitter) : (s.mapTx f).freeCount = s.freeCount := rfl

/-! ## mapRx -/

@[simp] theorem State.mapRx_pending (f : Receiver → Receiver) : (s.mapRx f).pending = s.pending := rfl
@[simp] theorem State.mapRx_line (f : Receiver → Receiver) : (s.mapRx f).line = s.line := rfl
@[simp] theorem State.mapRx_tx (f : Receiver → Receiver) : (s.mapRx f).tx = s.tx := rfl
@[simp] theorem State.mapRx_rx (f : Receiver → Receiver) : (s.mapRx f).rx = f s.rx := rfl
@[simp] theorem State.mapRx_table (f : Receiver → Receiver) : (s.mapRx f).table = s.table := rfl
@[simp] theorem State.mapRx_ctrl (f : Receiver → Receiver) : (s.mapRx f).ctrl = s.ctrl := rfl
@[simp] theorem State.mapRx_records (f : Receiver → Receiver) : (s.mapRx f).records = s.records := rfl
@[simp] theorem State.mapRx_notices (f : Receiver → Receiver) : (s.mapRx f).notices = s.notices := rfl
@[simp] theorem State.mapRx_port (f : Receiver → Receiver) : (s.mapRx f).port = s.port := rfl
@[simp] theorem State.mapRx_timebase (f : Receiver → Receiver) : (s.mapRx f).timebase = s.timebase := rfl
@[simp] theorem State.mapRx_lineIn (f : Receiver → Receiver) : (s.mapRx f).lineIn = s.lineIn := rfl
@[simp] theorem State.mapRx_freeCount (f : Receiver → Receiver) : (s.mapRx f).freeCount = s.freeCount := rfl

/-! ## mapTable -/

@[simp] theorem State.mapTable_pending (f : Replica → Replica) : (s.mapTable f).pending = s.pending := rfl
@[simp] theorem State.mapTable_line (f : Replica → Replica) : (s.mapTable f).line = s.line := rfl
@[simp] theorem State.mapTable_tx (f : Replica → Replica) : (s.mapTable f).tx = s.tx := rfl
@[simp] theorem State.mapTable_rx (f : Replica → Replica) : (s.mapTable f).rx = s.rx := rfl
@[simp] theorem State.mapTable_table (f : Replica → Replica) : (s.mapTable f).table = f s.table := rfl
@[simp] theorem State.mapTable_ctrl (f : Replica → Replica) : (s.mapTable f).ctrl = s.ctrl := rfl
@[simp] theorem State.mapTable_records (f : Replica → Replica) : (s.mapTable f).records = s.records := rfl
@[simp] theorem State.mapTable_notices (f : Replica → Replica) : (s.mapTable f).notices = s.notices := rfl
@[simp] theorem State.mapTable_port (f : Replica → Replica) : (s.mapTable f).port = s.port := rfl
@[simp] theorem State.mapTable_timebase (f : Replica → Replica) : (s.mapTable f).timebase = s.timebase := rfl
@[simp] theorem State.mapTable_lineIn (f : Replica → Replica) : (s.mapTable f).lineIn = s.lineIn := rfl
@[simp] theorem State.mapTable_freeCount (f : Replica → Replica) : (s.mapTable f).freeCount = s.freeCount := rfl

/-! ## mapCtrl -/

@[simp] theorem State.mapCtrl_pending (f : Controller → Controller) : (s.mapCtrl f).pending = s.pending := rfl
@[simp] theorem State.mapCtrl_line (f : Controller → Controller) : (s.mapCtrl f).line = s.line := rfl
@[simp] theorem State.mapCtrl_tx (f : Controller → Controller) : (s.mapCtrl f).tx = s.tx := rfl
@[simp] theorem State.mapCtrl_rx (f : Controller → Controller) : (s.mapCtrl f).rx = s.rx := rfl
@[simp] theorem State.mapCtrl_table (f : Controller → Controller) : (s.mapCtrl f).table = s.table := rfl
@[simp] theorem State.mapCtrl_ctrl (f : Controller → Controller) : (s.mapCtrl f).ctrl = f s.ctrl := rfl
@[simp] theorem State.mapCtrl_records (f : Controller → Controller) : (s.mapCtrl f).records = s.records := rfl
@[simp] theorem State.mapCtrl_notices (f : Controller → Controller) : (s.mapCtrl f).notices = s.notices := rfl
@[simp] theorem State.mapCtrl_port (f : Controller → Controller) : (s.mapCtrl f).port = s.port := rfl
@[simp] theorem State.mapCtrl_timebase (f : Controller → Controller) : (s.mapCtrl f).timebase = s.timebase := rfl
@[simp] theorem State.mapCtrl_lineIn (f : Controller → Controller) : (s.mapCtrl f).lineIn = s.lineIn := rfl
@[simp] theorem State.mapCtrl_freeCount (f : Controller → Controller) : (s.mapCtrl f).freeCount = s.freeCount := rfl

/-! ## mapNotices -/

@[simp] theorem State.mapNotices_pending (f : NoticeQueue → NoticeQueue) : (s.mapNotices f).pending = s.pending := rfl
@[simp] theorem State.mapNotices_line (f : NoticeQueue → NoticeQueue) : (s.mapNotices f).line = s.line := rfl
@[simp] theorem State.mapNotices_tx (f : NoticeQueue → NoticeQueue) : (s.mapNotices f).tx = s.tx := rfl
@[simp] theorem State.mapNotices_rx (f : NoticeQueue → NoticeQueue) : (s.mapNotices f).rx = s.rx := rfl
@[simp] theorem State.mapNotices_table (f : NoticeQueue → NoticeQueue) : (s.mapNotices f).table = s.table := rfl
@[simp] theorem State.mapNotices_ctrl (f : NoticeQueue → NoticeQueue) : (s.mapNotices f).ctrl = s.ctrl := rfl
@[simp] theorem State.mapNotices_records (f : NoticeQueue → NoticeQueue) : (s.mapNotices f).records = s.records := rfl
@[simp] theorem State.mapNotices_notices (f : NoticeQueue → NoticeQueue) : (s.mapNotices f).notices = f s.notices := rfl
@[simp] theorem State.mapNotices_port (f : NoticeQueue → NoticeQueue) : (s.mapNotices f).port = s.port := rfl
@[simp] theorem State.mapNotices_timebase (f : NoticeQueue → NoticeQueue) : (s.mapNotices f).timebase = s.timebase := rfl
@[simp] theorem State.mapNotices_lineIn (f : NoticeQueue → NoticeQueue) : (s.mapNotices f).lineIn = s.lineIn := rfl
@[simp] theorem State.mapNotices_freeCount (f : NoticeQueue → NoticeQueue) : (s.mapNotices f).freeCount = s.freeCount := rfl

/-! ## mapPort -/

@[simp] theorem State.mapPort_pending (f : Port → Port) : (s.mapPort f).pending = s.pending := rfl
@[simp] theorem State.mapPort_line (f : Port → Port) : (s.mapPort f).line = s.line := rfl
@[simp] theorem State.mapPort_tx (f : Port → Port) : (s.mapPort f).tx = s.tx := rfl
@[simp] theorem State.mapPort_rx (f : Port → Port) : (s.mapPort f).rx = s.rx := rfl
@[simp] theorem State.mapPort_table (f : Port → Port) : (s.mapPort f).table = s.table := rfl
@[simp] theorem State.mapPort_ctrl (f : Port → Port) : (s.mapPort f).ctrl = s.ctrl := rfl
@[simp] theorem State.mapPort_records (f : Port → Port) : (s.mapPort f).records = s.records := rfl
@[simp] theorem State.mapPort_notices (f : Port → Port) : (s.mapPort f).notices = s.notices := rfl
@[simp] theorem State.mapPort_port (f : Port → Port) : (s.mapPort f).port = f s.port := rfl
@[simp] theorem State.mapPort_timebase (f : Port → Port) : (s.mapPort f).timebase = s.timebase := rfl
@[simp] theorem State.mapPort_lineIn (f : Port → Port) : (s.mapPort f).lineIn = s.lineIn := rfl
@[simp] theorem State.mapPort_freeCount (f : Port → Port) : (s.mapPort f).freeCount = s.freeCount := rfl

/-! ## mapRecord -/

@[simp] theorem State.mapRecord_pending (k : RecordIndex) (f : ClaimRecord → ClaimRecord) :
    (s.mapRecord k f).pending = s.pending := rfl
@[simp] theorem State.mapRecord_line (k : RecordIndex) (f : ClaimRecord → ClaimRecord) :
    (s.mapRecord k f).line = s.line := rfl
@[simp] theorem State.mapRecord_tx (k : RecordIndex) (f : ClaimRecord → ClaimRecord) :
    (s.mapRecord k f).tx = s.tx := rfl
@[simp] theorem State.mapRecord_rx (k : RecordIndex) (f : ClaimRecord → ClaimRecord) :
    (s.mapRecord k f).rx = s.rx := rfl
@[simp] theorem State.mapRecord_table (k : RecordIndex) (f : ClaimRecord → ClaimRecord) :
    (s.mapRecord k f).table = s.table := rfl
@[simp] theorem State.mapRecord_ctrl (k : RecordIndex) (f : ClaimRecord → ClaimRecord) :
    (s.mapRecord k f).ctrl = s.ctrl := rfl
@[simp] theorem State.mapRecord_records (k : RecordIndex) (f : ClaimRecord → ClaimRecord) :
    (s.mapRecord k f).records = s.records.set k (f s.records[k]) := rfl
@[simp] theorem State.mapRecord_notices (k : RecordIndex) (f : ClaimRecord → ClaimRecord) :
    (s.mapRecord k f).notices = s.notices := rfl
@[simp] theorem State.mapRecord_port (k : RecordIndex) (f : ClaimRecord → ClaimRecord) :
    (s.mapRecord k f).port = s.port := rfl
@[simp] theorem State.mapRecord_timebase (k : RecordIndex) (f : ClaimRecord → ClaimRecord) :
    (s.mapRecord k f).timebase = s.timebase := rfl
@[simp] theorem State.mapRecord_lineIn (k : RecordIndex) (f : ClaimRecord → ClaimRecord) :
    (s.mapRecord k f).lineIn = s.lineIn := rfl
@[simp] theorem State.mapRecord_freeCount (k : RecordIndex) (f : ClaimRecord → ClaimRecord) :
    (s.mapRecord k f).freeCount = s.freeCount := rfl

/-! ## post -/

@[simp] theorem State.post_pending (subject : Subject) (detail : Byte) :
    (s.post subject detail).pending = s.pending := rfl
@[simp] theorem State.post_line (subject : Subject) (detail : Byte) :
    (s.post subject detail).line = s.line := rfl
@[simp] theorem State.post_tx (subject : Subject) (detail : Byte) :
    (s.post subject detail).tx = s.tx := rfl
@[simp] theorem State.post_rx (subject : Subject) (detail : Byte) :
    (s.post subject detail).rx = s.rx := rfl
@[simp] theorem State.post_table (subject : Subject) (detail : Byte) :
    (s.post subject detail).table = s.table := rfl
@[simp] theorem State.post_ctrl (subject : Subject) (detail : Byte) :
    (s.post subject detail).ctrl = s.ctrl := rfl
@[simp] theorem State.post_records (subject : Subject) (detail : Byte) :
    (s.post subject detail).records = s.records := rfl
@[simp] theorem State.post_notices (subject : Subject) (detail : Byte) :
    (s.post subject detail).notices = s.notices.post subject detail := rfl
@[simp] theorem State.post_port (subject : Subject) (detail : Byte) :
    (s.post subject detail).port = s.port := rfl
@[simp] theorem State.post_timebase (subject : Subject) (detail : Byte) :
    (s.post subject detail).timebase = s.timebase := rfl
@[simp] theorem State.post_lineIn (subject : Subject) (detail : Byte) :
    (s.post subject detail).lineIn = s.lineIn := rfl
@[simp] theorem State.post_freeCount (subject : Subject) (detail : Byte) :
    (s.post subject detail).freeCount = s.freeCount := rfl

/-! ## enqueue -/

@[simp] theorem State.enqueue_pending (e : TxEntry) : (s.enqueue e).pending = s.pending := rfl
@[simp] theorem State.enqueue_line (e : TxEntry) : (s.enqueue e).line = s.line := rfl
@[simp] theorem State.enqueue_tx (e : TxEntry) : (s.enqueue e).tx = { s.tx with queue := s.tx.queue ++ [e] } := rfl
@[simp] theorem State.enqueue_rx (e : TxEntry) : (s.enqueue e).rx = s.rx := rfl
@[simp] theorem State.enqueue_table (e : TxEntry) : (s.enqueue e).table = s.table := rfl
@[simp] theorem State.enqueue_ctrl (e : TxEntry) : (s.enqueue e).ctrl = s.ctrl := rfl
@[simp] theorem State.enqueue_records (e : TxEntry) : (s.enqueue e).records = s.records := rfl
@[simp] theorem State.enqueue_notices (e : TxEntry) : (s.enqueue e).notices = s.notices := rfl
@[simp] theorem State.enqueue_port (e : TxEntry) : (s.enqueue e).port = s.port := rfl
@[simp] theorem State.enqueue_timebase (e : TxEntry) : (s.enqueue e).timebase = s.timebase := rfl
@[simp] theorem State.enqueue_lineIn (e : TxEntry) : (s.enqueue e).lineIn = s.lineIn := rfl
@[simp] theorem State.enqueue_freeCount (e : TxEntry) : (s.enqueue e).freeCount = s.freeCount := rfl

/-! ## withPending -/

@[simp] theorem State.withPending_pending (p : List Instr) : (s.withPending p).pending = p := rfl
@[simp] theorem State.withPending_line (p : List Instr) : (s.withPending p).line = s.line := rfl
@[simp] theorem State.withPending_tx (p : List Instr) : (s.withPending p).tx = s.tx := rfl
@[simp] theorem State.withPending_rx (p : List Instr) : (s.withPending p).rx = s.rx := rfl
@[simp] theorem State.withPending_table (p : List Instr) : (s.withPending p).table = s.table := rfl
@[simp] theorem State.withPending_ctrl (p : List Instr) : (s.withPending p).ctrl = s.ctrl := rfl
@[simp] theorem State.withPending_records (p : List Instr) : (s.withPending p).records = s.records := rfl
@[simp] theorem State.withPending_notices (p : List Instr) : (s.withPending p).notices = s.notices := rfl
@[simp] theorem State.withPending_port (p : List Instr) : (s.withPending p).port = s.port := rfl
@[simp] theorem State.withPending_timebase (p : List Instr) : (s.withPending p).timebase = s.timebase := rfl
@[simp] theorem State.withPending_lineIn (p : List Instr) : (s.withPending p).lineIn = s.lineIn := rfl
@[simp] theorem State.withPending_freeCount (p : List Instr) : (s.withPending p).freeCount = s.freeCount := rfl

/-! ## drawn -/

@[simp] theorem State.drawn_pending : s.drawn.pending = s.pending := rfl
@[simp] theorem State.drawn_line : s.drawn.line = s.line := rfl
@[simp] theorem State.drawn_tx : s.drawn.tx = s.tx := rfl
@[simp] theorem State.drawn_rx : s.drawn.rx = s.rx := rfl
@[simp] theorem State.drawn_table : s.drawn.table = s.table := rfl
@[simp] theorem State.drawn_ctrl : s.drawn.ctrl = s.ctrl := rfl
@[simp] theorem State.drawn_records : s.drawn.records = s.records := rfl
@[simp] theorem State.drawn_notices : s.drawn.notices = s.notices := rfl
@[simp] theorem State.drawn_port : s.drawn.port = s.port := rfl
@[simp] theorem State.drawn_timebase : s.drawn.timebase = s.timebase := rfl
@[simp] theorem State.drawn_lineIn : s.drawn.lineIn = s.lineIn := rfl
@[simp] theorem State.drawn_freeCount : s.drawn.freeCount = s.freeCount + 1 := rfl

/-! ## goIdle -/

@[simp] theorem State.goIdle_pending : s.goIdle.pending = s.pending := rfl
@[simp] theorem State.goIdle_line : s.goIdle.line = { s.line with state := .idle, recessiveCount := 0 } := rfl
@[simp] theorem State.goIdle_tx : s.goIdle.tx = { s.tx with startReport := s.offered } := rfl
@[simp] theorem State.goIdle_rx : s.goIdle.rx = s.rx := rfl
@[simp] theorem State.goIdle_table : s.goIdle.table = s.table := rfl
@[simp] theorem State.goIdle_ctrl : s.goIdle.ctrl = s.ctrl := rfl
@[simp] theorem State.goIdle_records : s.goIdle.records = s.records := rfl
@[simp] theorem State.goIdle_notices : s.goIdle.notices = s.notices := rfl
@[simp] theorem State.goIdle_port : s.goIdle.port = s.port := rfl
@[simp] theorem State.goIdle_timebase : s.goIdle.timebase = s.timebase := rfl
@[simp] theorem State.goIdle_lineIn : s.goIdle.lineIn = s.lineIn := rfl
@[simp] theorem State.goIdle_freeCount : s.goIdle.freeCount = s.freeCount := rfl

/-! ## answered -/

@[simp] theorem State.answered_pending (c : Byte) (status : Status) (data : List Byte) :
    (s.answered c status data).pending = s.pending := rfl
@[simp] theorem State.answered_line (c : Byte) (status : Status) (data : List Byte) :
    (s.answered c status data).line = s.line := rfl
@[simp] theorem State.answered_tx (c : Byte) (status : Status) (data : List Byte) :
    (s.answered c status data).tx = s.tx := rfl
@[simp] theorem State.answered_rx (c : Byte) (status : Status) (data : List Byte) :
    (s.answered c status data).rx = s.rx := rfl
@[simp] theorem State.answered_table (c : Byte) (status : Status) (data : List Byte) :
    (s.answered c status data).table = s.table := rfl
@[simp] theorem State.answered_ctrl (c : Byte) (status : Status) (data : List Byte) :
    (s.answered c status data).ctrl = s.ctrl := rfl
@[simp] theorem State.answered_records (c : Byte) (status : Status) (data : List Byte) :
    (s.answered c status data).records = s.records := rfl
@[simp] theorem State.answered_notices (c : Byte) (status : Status) (data : List Byte) :
    (s.answered c status data).notices = s.notices := rfl
@[simp] theorem State.answered_port (c : Byte) (status : Status) (data : List Byte) :
    (s.answered c status data).port = s.port.taken (some c) status data := rfl
@[simp] theorem State.answered_timebase (c : Byte) (status : Status) (data : List Byte) :
    (s.answered c status data).timebase = s.timebase := rfl
@[simp] theorem State.answered_lineIn (c : Byte) (status : Status) (data : List Byte) :
    (s.answered c status data).lineIn = s.lineIn := rfl
@[simp] theorem State.answered_freeCount (c : Byte) (status : Status) (data : List Byte) :
    (s.answered c status data).freeCount = s.freeCount := rfl

end Sys2Proof.Machine
end

