-- ==== Sys2Proof/Laws/Queue.lean ====
section
/-! SUPPORT. What handing out the free places of the transmit queue (R67) and cancelling a queued frame
(R78) can do. A proof about `State.handOut` goes through `State.handOut_induct` or the lemmas after it. -/

namespace Sys2Proof.Machine

/-! ## Handing out -/

/-- The taking of one owed frame: the only thing handing out does, again and again. -/
def State.taking (o : OwedFrame) (s : State) : State :=
  (s.markTaken o).enqueue (.fresh o.kind o.owner (o.body s))

theorem State.handOutOne_cases (s : State) :
    s.handOutOne = s
      ∨ ∃ o, s.tx.queue.length < 8 ∧ s.nextOwed = some o ∧ s.handOutOne = s.taking o := by
  unfold State.handOutOne
  split
  · split
    · exact .inr ⟨_, by assumption, by assumption, rfl⟩
    · exact .inl rfl
  · exact .inl rfl

/-- What every taking of an owed frame into a free place keeps, handing out keeps. -/
theorem State.handOut_induct {P : State → Prop} (s : State) (start : P s)
    (keep : ∀ t o, P t → t.tx.queue.length < 8 → t.nextOwed = some o → P (t.taking o)) :
    P s.handOut := by
  have one : ∀ t, P t → P t.handOutOne := fun t ht => by
    rcases t.handOutOne_cases with h | ⟨o, hl, ho, h⟩
    · rwa [h]
    · rw [h]; exact keep t o ht hl ho
  have many : ∀ n, P (Nat.repeat State.handOutOne n s) := by
    intro n
    induction n with
    | zero => exact start
    | succ n ih => exact one _ ih
  unfold State.handOut
  exact many 8

theorem State.taking_pending (o : OwedFrame) (s : State) : (s.taking o).pending = s.pending := by
  cases o <;> rfl

theorem State.taking_line (o : OwedFrame) (s : State) : (s.taking o).line = s.line := by
  cases o <;> rfl

theorem State.taking_rx (o : OwedFrame) (s : State) : (s.taking o).rx = s.rx := by
  cases o <;> rfl

theorem State.taking_table (o : OwedFrame) (s : State) : (s.taking o).table = s.table := by
  cases o <;> rfl

theorem State.taking_notices (o : OwedFrame) (s : State) : (s.taking o).notices = s.notices := by
  cases o <;> rfl

theorem State.taking_port (o : OwedFrame) (s : State) : (s.taking o).port = s.port := by
  cases o <;> rfl

theorem State.taking_timebase (o : OwedFrame) (s : State) : (s.taking o).timebase = s.timebase := by
  cases o <;> rfl

theorem State.taking_lineIn (o : OwedFrame) (s : State) : (s.taking o).lineIn = s.lineIn := by
  cases o <;> rfl

theorem State.taking_freeCount (o : OwedFrame) (s : State) : (s.taking o).freeCount = s.freeCount := by
  cases o <;> rfl

theorem State.taking_tx (o : OwedFrame) (s : State) :
    (s.taking o).tx =
      { s.tx with queue := s.tx.queue ++ [.fresh o.kind o.owner (o.body s)] } := by
  cases o <;> rfl

theorem State.taking_ctrl (o : OwedFrame) (s : State) :
    (s.taking o).ctrl =
      { s.ctrl with owed := (s.taking o).ctrl.owed,
                    evictInHand := (s.taking o).ctrl.evictInHand } := by
  cases o <;> rfl

theorem State.taking_record (o : OwedFrame) (s : State) (k : RecordIndex) :
    (s.taking o).records[k] =
      { s.records[k] with owedDrop := (s.taking o).records[k].owedDrop,
                          mark := (s.taking o).records[k].mark } := by
  cases o <;> try rfl
  rename_i j
  show (s.records.set j _)[k] = _
  simp only [State.taking, State.markTaken, State.enqueue_records, State.mapRecord_records,
    Fin.getElem_fin, Vector.getElem_set]
  split
  · rename_i h; simp [h]
  · rfl

/-- What a taking leaves: everything but the queue, the owed marks, the phase of the EVICT in hand, and
the owed-drop flags and frame marks of the records. -/
structure SameButTakings (s t : State) : Prop where
  pending : t.pending = s.pending
  line : t.line = s.line
  rx : t.rx = s.rx
  table : t.table = s.table
  notices : t.notices = s.notices
  port : t.port = s.port
  timebase : t.timebase = s.timebase
  lineIn : t.lineIn = s.lineIn
  freeCount : t.freeCount = s.freeCount
  tx : t.tx = { s.tx with queue := t.tx.queue }
  ctrl : t.ctrl = { s.ctrl with owed := t.ctrl.owed, evictInHand := t.ctrl.evictInHand }
  target : t.ctrl.evictInHand.map EvictInHand.target = s.ctrl.evictInHand.map EvictInHand.target
  record : ∀ k : RecordIndex, t.records[k] =
    { s.records[k] with owedDrop := t.records[k].owedDrop, mark := t.records[k].mark }

theorem SameButTakings.refl (s : State) : SameButTakings s s := by constructor <;> simp

/-- The frame is owed (R67). -/
def State.Owes (s : State) : OwedFrame → Prop
  | .leave => s.ctrl.owed.leave = true
  | .evict x => s.ctrl.evictInHand = some ⟨x, .owed⟩
  | .admission j => s.ctrl.owed.admission = true ∧ s.ctrl.donor = .admitting j
  | .snapshot j => s.ctrl.owed.snapshot = true ∧ s.ctrl.donor = .donating j
  | .presence => s.ctrl.owed.presence = true
  | .drop k => s.records[k].owedDrop = true
  | .announce => s.ctrl.owed.announce = true
  | .joinAsk => s.ctrl.owed.joinAsk = true

theorem State.mem_owedFrames {s : State} {o : OwedFrame} : o ∈ s.owedFrames ↔ s.Owes o := by
  have evict : o ∈ s.ctrl.owedEvict ↔ ∃ x, o = .evict x ∧ s.ctrl.evictInHand = some ⟨x, .owed⟩ := by
    unfold Controller.owedEvict
    split <;> simp_all
  have admission : o ∈ s.ctrl.owedAdmit ↔
      ∃ j, o = .admission j ∧ s.ctrl.owed.admission = true ∧ s.ctrl.donor = .admitting j := by
    unfold Controller.owedAdmit
    split <;> simp_all
    exact And.comm
  have snapshot : o ∈ s.ctrl.owedSnapshot ↔
      ∃ j, o = .snapshot j ∧ s.ctrl.owed.snapshot = true ∧ s.ctrl.donor = .donating j := by
    unfold Controller.owedSnapshot
    split <;> simp_all
    exact And.comm
  simp only [State.owedFrames, List.mem_append, List.mem_ite_nil_right, List.mem_map,
    List.mem_filter, List.mem_singleton, evict, admission, snapshot, allRecords, List.mem_finRange,
    true_and]
  cases o <;> simp [State.Owes]

/-- What the frame taken next is. -/
theorem State.nextOwed_spec {s : State} {o : OwedFrame} (h : s.nextOwed = some o) :
    s.Owes o ∧ admits s.ctrl.station o.kind = true
      ∧ guardMet s.tx.queue o.kind o.owner = true := by
  refine ⟨State.mem_owedFrames.1 (List.mem_of_find?_eq_some h), ?_⟩
  simpa using List.find?_some h

theorem State.taking_target {s : State} {o : OwedFrame} (h : s.Owes o) :
    (s.taking o).ctrl.evictInHand.map EvictInHand.target
      = s.ctrl.evictInHand.map EvictInHand.target := by
  cases o <;> try rfl
  simp only [State.Owes] at h
  simp [State.taking, State.markTaken, h]

theorem SameButTakings.taking {s t : State} (h : SameButTakings s t) {o : OwedFrame}
    (ho : t.Owes o) : SameButTakings s (t.taking o) where
  pending := by rw [State.taking_pending, h.pending]
  line := by rw [State.taking_line, h.line]
  rx := by rw [State.taking_rx, h.rx]
  table := by rw [State.taking_table, h.table]
  notices := by rw [State.taking_notices, h.notices]
  port := by rw [State.taking_port, h.port]
  timebase := by rw [State.taking_timebase, h.timebase]
  lineIn := by rw [State.taking_lineIn, h.lineIn]
  freeCount := by rw [State.taking_freeCount, h.freeCount]
  tx := by rw [State.taking_tx, h.tx]
  ctrl := by
    have h1 := State.taking_ctrl o t
    rw [h.ctrl] at h1
    exact h1
  target := by rw [State.taking_target ho, h.target]
  record := fun k => by
    have h1 := State.taking_record o t k
    rw [h.record k] at h1
    exact h1

/-- Everything that handing out leaves as it is. -/
theorem State.handOut_same (s : State) : SameButTakings s s.handOut :=
  State.handOut_induct s (.refl s) fun _ _ h _ ho => h.taking (State.nextOwed_spec ho).1

@[simp] theorem State.handOut_pending (s : State) : s.handOut.pending = s.pending :=
  s.handOut_same.pending

@[simp] theorem State.handOut_line (s : State) : s.handOut.line = s.line := s.handOut_same.line

@[simp] theorem State.handOut_rx (s : State) : s.handOut.rx = s.rx := s.handOut_same.rx

@[simp] theorem State.handOut_table (s : State) : s.handOut.table = s.table := s.handOut_same.table

@[simp] theorem State.handOut_notices (s : State) : s.handOut.notices = s.notices :=
  s.handOut_same.notices

@[simp] theorem State.handOut_port (s : State) : s.handOut.port = s.port := s.handOut_same.port

@[simp] theorem State.handOut_timebase (s : State) : s.handOut.timebase = s.timebase :=
  s.handOut_same.timebase

@[simp] theorem State.handOut_lineIn (s : State) : s.handOut.lineIn = s.lineIn :=
  s.handOut_same.lineIn

@[simp] theorem State.handOut_freeCount (s : State) : s.handOut.freeCount = s.freeCount :=
  s.handOut_same.freeCount

@[simp] theorem State.handOut_attempts (s : State) : s.handOut.tx.attempts = s.tx.attempts := by
  rw [s.handOut_same.tx]

@[simp] theorem State.handOut_frame (s : State) : s.handOut.tx.frame = s.tx.frame := by
  rw [s.handOut_same.tx]

@[simp] theorem State.handOut_reports (s : State) : s.handOut.tx.reports = s.tx.reports := by
  rw [s.handOut_same.tx]

/-- Handing out appends new READY entries at the tail of the queue, each admitted by the gate, and never
beyond 8 places. -/
theorem State.handOut_queue (s : State) : ∃ extra, s.handOut.tx.queue = s.tx.queue ++ extra
    ∧ (∀ e ∈ extra, e.state = .ready ∧ e.cancel = false ∧ e.lastActive = false
        ∧ admits s.ctrl.station e.kind = true)
    ∧ (s.tx.queue.length ≤ 8 → s.handOut.tx.queue.length ≤ 8) := by
  have h := State.handOut_induct (P := fun t => SameButTakings s t ∧
      ∃ extra, t.tx.queue = s.tx.queue ++ extra
        ∧ (∀ e ∈ extra, e.state = .ready ∧ e.cancel = false ∧ e.lastActive = false
          ∧ admits s.ctrl.station e.kind = true)
        ∧ (s.tx.queue.length ≤ 8 → t.tx.queue.length ≤ 8)) s
    ⟨.refl s, [], by simp⟩ ?_
  · exact h.2
  · rintro t o ⟨hs, extra, hq, he, _⟩ hlen ho
    obtain ⟨howes, hadm, _⟩ := State.nextOwed_spec ho
    refine ⟨hs.taking howes, extra ++ [.fresh o.kind o.owner (o.body t)], ?_, ?_, ?_⟩
    · simp [State.taking_tx, hq]
    · intro e hmem
      rcases List.mem_append.1 hmem with hmem | hmem
      · exact he e hmem
      · rw [List.mem_singleton.1 hmem]
        refine ⟨rfl, rfl, rfl, ?_⟩
        have : t.ctrl.station = s.ctrl.station := by rw [hs.ctrl]
        rw [← this]; exact hadm
    · intro _
      simp only [State.taking_tx, List.length_append, List.length_singleton]
      omega

theorem State.taking_owes {s : State} {o o' : OwedFrame} (h : s.Owes o) (h' : s.Owes o')
    (hne : o' ≠ o) : (s.taking o').Owes o := by
  cases o <;> cases o' <;>
    simp_all [State.Owes, State.taking, State.markTaken, Fin.ext_iff]

theorem SameButTakings.body {s t : State} (h : SameButTakings s t) (o : OwedFrame) :
    o.body t = o.body s := by
  have hr (k : RecordIndex) : t.records[k].resource = s.records[k].resource := by rw [h.record k]
  have hb : t.ctrl.snapshot = s.ctrl.snapshot := by rw [h.ctrl]
  cases o <;> simp only [OwedFrame.body, hr, hb, h.port]

/-- What handing out does to an owed frame: it is owed still, or it has been queued. -/
theorem State.handOut_owed (s : State) (o : OwedFrame) (h : s.Owes o) :
    s.handOut.Owes o
      ∨ ∃ e ∈ s.handOut.tx.queue, e.kind = o.kind ∧ e.owner = o.owner ∧ e.body = o.body s := by
  have hP := State.handOut_induct (P := fun t => SameButTakings s t ∧
      (t.Owes o ∨ ∃ e ∈ t.tx.queue, e.kind = o.kind ∧ e.owner = o.owner ∧ e.body = o.body s)) s
    ⟨.refl s, .inl h⟩ ?_
  · exact hP.2
  · rintro t o' ⟨hs, ht⟩ _ ho
    obtain ⟨ho', _⟩ := State.nextOwed_spec ho
    refine ⟨hs.taking ho', ?_⟩
    rcases ht with ht | ⟨e, he, hk⟩
    · by_cases heq : o' = o
      · subst heq
        exact .inr ⟨.fresh o'.kind o'.owner (o'.body t), by simp [State.taking_tx], rfl, rfl,
          hs.body o'⟩
      · exact .inl (State.taking_owes ht ho' heq)
    · exact .inr ⟨e, by simp [State.taking_tx, he], hk⟩

/-- A record without an owed drop is not touched. -/
theorem State.handOut_record_of_not_owed (s : State) (k : RecordIndex)
    (h : s.records[k].owedDrop = false) : s.handOut.records[k] = s.records[k] := by
  have hP := State.handOut_induct (P := fun t => t.records[k] = s.records[k]) s rfl ?_
  · exact hP
  · intro t o ht _ ho
    have hw := (State.nextOwed_spec ho).1
    cases o <;> try exact ht
    rename_i j
    simp only [State.Owes] at hw
    simp only [State.taking, State.markTaken, State.enqueue_records, State.mapRecord_records,
      Fin.getElem_fin, Vector.getElem_set]
    split
    · rename_i hj
      have : j = k := Fin.ext hj
      subst this
      rw [ht, h] at hw
      exact absurd hw (by simp)
    · exact ht

/-- With nothing that can be taken, handing out does nothing. -/
theorem State.handOut_of_none (s : State) (h : s.nextOwed = none) : s.handOut = s := by
  have one : s.handOutOne = s := by
    unfold State.handOutOne
    split
    · rw [h]
    · rfl
  have many : ∀ n, Nat.repeat State.handOutOne n s = s := by
    intro n
    induction n with
    | zero => rfl
    | succ n ih => rw [Nat.repeat, ih, one]
  unfold State.handOut
  exact many 8

/-- With no owed frame that the station state admits, handing out does nothing. -/
theorem State.handOut_of_not_admitted (s : State)
    (h : ∀ o, s.Owes o → admits s.ctrl.station o.kind = false) : s.handOut = s := by
  refine s.handOut_of_none ?_
  cases ho : s.nextOwed with
  | none => rfl
  | some o =>
    obtain ⟨hw, ha, _⟩ := State.nextOwed_spec ho
    rw [h o hw] at ha
    exact absurd ha (by simp)

/-- The station enters a state that admits no frame (R68): OFFLINE, LISTENING and HOLDOFF. -/
theorem State.enter_of_silent (st : StationState) (s : State)
    (h : st = .offline ∨ st = .listening ∨ st = .holdoff) :
    s.enter st = s.mapCtrl fun c => { c with station := st } := by
  refine State.handOut_of_not_admitted _ fun o _ => ?_
  rcases h with rfl | rfl | rfl <;> cases o <;> rfl

/-- With no free place, handing out does nothing. -/
theorem State.handOut_of_full (s : State) (h : 8 ≤ s.tx.queue.length) : s.handOut = s := by
  have one : s.handOutOne = s := by
    unfold State.handOutOne
    rw [if_neg (by omega)]
  have many : ∀ n, Nat.repeat State.handOutOne n s = s := by
    intro n
    induction n with
    | zero => rfl
    | succ n ih => rw [Nat.repeat, ih, one]
  unfold State.handOut
  exact many 8

/-! ### Nothing that can be taken is left -/

/-- R67: an owed frame waits only for a free place, exactly when no owed frame can be taken next. -/
theorem State.owedLaw_iff (s : State) :
    s.OwedLaw ↔ 8 ≤ s.tx.queue.length ∨ s.nextOwed = none := by
  unfold State.OwedLaw State.nextOwed
  rw [List.find?_eq_none]
  simp only [Bool.and_eq_true, not_and, Bool.not_eq_true]

theorem State.handOutOne_of_owedLaw {s : State} (h : s.OwedLaw) : s.handOutOne = s := by
  rcases s.handOutOne_cases with he | ⟨o, hl, ho, _⟩
  · exact he
  · rcases s.owedLaw_iff.1 h with h | h
    · omega
    · rw [h] at ho; cases ho

/-- After `n` places have been handed out either nothing can be taken or `n` frames have been queued. -/
theorem State.repeat_handOutOne (s : State) (n : Nat) :
    (Nat.repeat State.handOutOne n s).OwedLaw
      ∨ s.tx.queue.length + n ≤ (Nat.repeat State.handOutOne n s).tx.queue.length := by
  induction n with
  | zero => exact .inr (Nat.le_refl _)
  | succ n ih =>
    rw [Nat.repeat]
    rcases ih with h | h
    · rw [State.handOutOne_of_owedLaw h]; exact .inl h
    · generalize Nat.repeat State.handOutOne n s = t at h
      by_cases hl : t.OwedLaw
      · rw [State.handOutOne_of_owedLaw hl]; exact .inl hl
      · rcases t.handOutOne_cases with he | ⟨o, _, _, he⟩
        · refine absurd ?_ hl
          rw [State.owedLaw_iff]
          unfold State.handOutOne at he
          split at he
          · split at he
            · have hq := congrArg (fun u => u.tx.queue.length) he
              rename_i o _
              have := State.taking_tx o t
              simp only [State.taking] at this
              simp only [this, List.length_append, List.length_singleton] at hq
              omega
            · exact .inr (by assumption)
          · exact .inl (by omega)
        · rw [he, State.taking_tx]
          right
          simp only [List.length_append, List.length_singleton]
          omega

/-- Handing out leaves no owed frame that could be taken (R67). -/
theorem State.handOut_law (s : State) : s.handOut.OwedLaw := by
  unfold State.handOut
  rcases s.repeat_handOutOne 8 with h | h
  · exact h
  · exact .inl (by omega)

/-- Handing out goes on after the first place as it would from there. -/
theorem State.handOut_handOutOne (s : State) : s.handOut = s.handOutOne.handOut := by
  have step : ∀ n, Nat.repeat State.handOutOne n s.handOutOne = Nat.repeat State.handOutOne (n + 1) s := by
    intro n
    induction n with
    | zero => rfl
    | succ n ih => rw [Nat.repeat, ih]; rfl
  have law := s.handOut_law
  unfold State.handOut at law ⊢
  have last : ∀ n, Nat.repeat State.handOutOne (n + 1) s = (Nat.repeat State.handOutOne n s).handOutOne :=
    fun _ => rfl
  rw [step 8, last 8, State.handOutOne_of_owedLaw law]

/-- A frame owed after a taking was owed before. -/
theorem State.owes_of_taking {s : State} {o x : OwedFrame} (h : (s.taking o).Owes x) :
    s.Owes x := by
  cases x <;> cases o <;>
    simp_all [State.Owes, State.taking, State.markTaken, Vector.getElem_set]
  all_goals (split at h <;> simp_all)

/-- The frame that a taking takes is owed no more. -/
theorem State.not_owes_taking (s : State) (o : OwedFrame) (h : s.Owes o) :
    ¬ (s.taking o).Owes o := by
  cases o <;> simp_all [State.Owes, State.taking, State.markTaken]

/-- A frame owed after handing out was owed before. -/
theorem State.owes_of_handOut {s : State} {o : OwedFrame} (h : s.handOut.Owes o) : s.Owes o := by
  revert h
  exact State.handOut_induct (P := fun t => t.Owes o → s.Owes o) s id
    fun _ _ ih _ _ h => ih (State.owes_of_taking h)

/-- An entry of the queue after handing out stood there before, or is that of a frame that was owed. -/
theorem State.handOut_mem (s : State) {e : TxEntry} (h : e ∈ s.handOut.tx.queue) :
    e ∈ s.tx.queue ∨ ∃ o, s.Owes o ∧ e.kind = o.kind ∧ e.owner = o.owner := by
  have hP := State.handOut_induct (P := fun t => (∀ o, t.Owes o → s.Owes o) ∧
      ∀ e ∈ t.tx.queue, e ∈ s.tx.queue ∨ ∃ o, s.Owes o ∧ e.kind = o.kind ∧ e.owner = o.owner) s
    ⟨fun _ ho => ho, fun _ he => .inl he⟩ ?_
  · exact hP.2 e h
  · rintro t o ⟨ho, hq⟩ _ hn
    have hw := (State.nextOwed_spec hn).1
    refine ⟨fun o' h' => ho o' (State.owes_of_taking h'), fun e he => ?_⟩
    simp only [State.taking_tx, List.mem_append, List.mem_singleton] at he
    rcases he with he | rfl
    · exact hq e he
    · exact .inr ⟨o, ho o hw, rfl, rfl⟩

/-- Handing out appends the entries of frames that were owed, each READY and unmarked with the body its
rule gives (R64, R67). -/
theorem State.handOut_extra (s : State) : ∃ extra, s.handOut.tx.queue = s.tx.queue ++ extra
    ∧ ∀ e ∈ extra, ∃ o, s.Owes o ∧ e = .fresh o.kind o.owner (o.body s) := by
  have hP := State.handOut_induct (P := fun t => SameButTakings s t ∧ (∀ o, t.Owes o → s.Owes o) ∧
      ∃ extra, t.tx.queue = s.tx.queue ++ extra
        ∧ ∀ e ∈ extra, ∃ o, s.Owes o ∧ e = .fresh o.kind o.owner (o.body s)) s
    ⟨.refl s, fun _ h => h, [], by simp⟩ ?_
  · exact hP.2.2
  · rintro t o ⟨hs, ho, extra, hq, he⟩ _ hn
    have hw := (State.nextOwed_spec hn).1
    refine ⟨hs.taking hw, fun x hx => ho x (State.owes_of_taking hx),
      extra ++ [.fresh o.kind o.owner (o.body t)], by simp [State.taking_tx, hq], fun e hmem => ?_⟩
    rcases List.mem_append.1 hmem with hmem | hmem
    · exact he e hmem
    · exact ⟨o, ho o hw, by rw [List.mem_singleton.1 hmem, hs.body o]⟩

/-- A guard that an entry more in the queue leaves met was met before it (R69). -/
theorem guardMet_of_append {queue : List TxEntry} {e : TxEntry} {kind : FrameKind}
    {owner : FrameOwner} (h : guardMet (queue ++ [e]) kind owner = true) :
    guardMet queue kind owner = true := by
  cases owner with
  | claimUnit k => simp only [guardMet, List.all_append, Bool.and_eq_true] at h ⊢; exact h.1
  | controller =>
    cases kind <;> simp only [guardMet, List.all_append, Bool.and_eq_true] at h ⊢ <;> exact h.1

/-- With one owed frame that can be taken, and a place for it, handing out takes that one (R67). -/
theorem State.handOut_of_only {s : State} {o : OwedFrame} (place : s.tx.queue.length < 8)
    (owed : s.Owes o) (gate : admits s.ctrl.station o.kind = true)
    (guard : guardMet s.tx.queue o.kind o.owner = true)
    (only : ∀ x, s.Owes x → x ≠ o → admits s.ctrl.station x.kind = true →
      guardMet s.tx.queue x.kind x.owner = false) :
    s.handOut = s.taking o := by
  have next : s.nextOwed = some o := by
    cases hn : s.nextOwed with
    | none =>
      have := List.find?_eq_none.1 hn o (State.mem_owedFrames.2 owed)
      simp [gate, guard] at this
    | some x =>
      obtain ⟨hw, ha, hg⟩ := State.nextOwed_spec hn
      by_cases hx : x = o
      · rw [hx]
      · rw [only x hw hx ha] at hg; cases hg
  have one : s.handOutOne = s.taking o := by
    unfold State.handOutOne
    rw [if_pos place, next]
    rfl
  rw [State.handOut_handOutOne, one]
  refine State.handOut_of_none _ ?_
  cases hn : (s.taking o).nextOwed with
  | none => rfl
  | some x =>
    exfalso
    obtain ⟨hw, ha, hg⟩ := State.nextOwed_spec hn
    have hx := State.owes_of_taking hw
    have hne : x ≠ o := fun e => State.not_owes_taking s o owed (e ▸ hw)
    rw [show (s.taking o).ctrl.station = s.ctrl.station by rw [State.taking_ctrl]] at ha
    rw [State.taking_tx] at hg
    have before := guardMet_of_append hg
    rw [only x hx hne ha] at before
    cases before

/-- What is owed depends on the owed marks, the EVICT in hand, the donor phase and the owed drops. -/
theorem State.owedFrames_congr {s t : State} (owed : t.ctrl.owed = s.ctrl.owed)
    (hand : t.ctrl.evictInHand = s.ctrl.evictInHand) (donor : t.ctrl.donor = s.ctrl.donor)
    (drops : ∀ k : RecordIndex, t.records[k].owedDrop = s.records[k].owedDrop) :
    t.owedFrames = s.owedFrames := by
  unfold State.owedFrames Controller.owedEvict Controller.owedAdmit Controller.owedSnapshot
  have : (allRecords.filter fun k => t.records[k].owedDrop)
      = allRecords.filter fun k => s.records[k].owedDrop := List.filter_congr fun k _ => drops k
  rw [owed, hand, donor, this]

/-! ### Fields of the controller and of the records -/

@[simp] theorem State.handOut_ctrl_station (s : State) : s.handOut.ctrl.station = s.ctrl.station := by
  rw [s.handOut_same.ctrl]

@[simp] theorem State.handOut_ctrl_workingE (s : State) : s.handOut.ctrl.workingE = s.ctrl.workingE := by
  rw [s.handOut_same.ctrl]

@[simp] theorem State.handOut_ctrl_learnedE (s : State) : s.handOut.ctrl.learnedE = s.ctrl.learnedE := by
  rw [s.handOut_same.ctrl]

@[simp] theorem State.handOut_ctrl_listen (s : State) : s.handOut.ctrl.listen = s.ctrl.listen := by
  rw [s.handOut_same.ctrl]

@[simp] theorem State.handOut_ctrl_lowestTag (s : State) : s.handOut.ctrl.lowestTag = s.ctrl.lowestTag := by
  rw [s.handOut_same.ctrl]

@[simp] theorem State.handOut_ctrl_askedTag (s : State) : s.handOut.ctrl.askedTag = s.ctrl.askedTag := by
  rw [s.handOut_same.ctrl]

@[simp] theorem State.handOut_ctrl_ask (s : State) : s.handOut.ctrl.ask = s.ctrl.ask := by
  rw [s.handOut_same.ctrl]

@[simp] theorem State.handOut_ctrl_askCount (s : State) : s.handOut.ctrl.askCount = s.ctrl.askCount := by
  rw [s.handOut_same.ctrl]

@[simp] theorem State.handOut_ctrl_founding (s : State) : s.handOut.ctrl.founding = s.ctrl.founding := by
  rw [s.handOut_same.ctrl]

@[simp] theorem State.handOut_ctrl_joinAsks (s : State) : s.handOut.ctrl.joinAsks = s.ctrl.joinAsks := by
  rw [s.handOut_same.ctrl]

@[simp] theorem State.handOut_ctrl_donor (s : State) : s.handOut.ctrl.donor = s.ctrl.donor := by
  rw [s.handOut_same.ctrl]

@[simp] theorem State.handOut_ctrl_snapshot (s : State) : s.handOut.ctrl.snapshot = s.ctrl.snapshot := by
  rw [s.handOut_same.ctrl]

@[simp] theorem State.handOut_ctrl_staleParts (s : State) : s.handOut.ctrl.staleParts = s.ctrl.staleParts := by
  rw [s.handOut_same.ctrl]

@[simp] theorem State.handOut_ctrl_donorStation (s : State) : s.handOut.ctrl.donorStation = s.ctrl.donorStation := by
  rw [s.handOut_same.ctrl]

@[simp] theorem State.handOut_ctrl_baseTseq (s : State) : s.handOut.ctrl.baseTseq = s.ctrl.baseTseq := by
  rw [s.handOut_same.ctrl]

@[simp] theorem State.handOut_ctrl_pendingApply (s : State) : s.handOut.ctrl.pendingApply = s.ctrl.pendingApply := by
  rw [s.handOut_same.ctrl]

@[simp] theorem State.handOut_ctrl_catchupCount (s : State) : s.handOut.ctrl.catchupCount = s.ctrl.catchupCount := by
  rw [s.handOut_same.ctrl]

@[simp] theorem State.handOut_ctrl_failed (s : State) : s.handOut.ctrl.failed = s.ctrl.failed := by
  rw [s.handOut_same.ctrl]

@[simp] theorem State.handOut_ctrl_stall (s : State) : s.handOut.ctrl.stall = s.ctrl.stall := by
  rw [s.handOut_same.ctrl]

@[simp] theorem State.handOut_ctrl_configDiffers (s : State) : s.handOut.ctrl.configDiffers = s.ctrl.configDiffers := by
  rw [s.handOut_same.ctrl]

@[simp] theorem State.handOut_ctrl_presence (s : State) : s.handOut.ctrl.presence = s.ctrl.presence := by
  rw [s.handOut_same.ctrl]

@[simp] theorem State.handOut_ctrl_silence (s : State) : s.handOut.ctrl.silence = s.ctrl.silence := by
  rw [s.handOut_same.ctrl]

@[simp] theorem State.handOut_ctrl_evictions (s : State) : s.handOut.ctrl.evictions = s.ctrl.evictions := by
  rw [s.handOut_same.ctrl]

@[simp] theorem State.handOut_ctrl_leaveMark (s : State) : s.handOut.ctrl.leaveMark = s.ctrl.leaveMark := by
  rw [s.handOut_same.ctrl]

@[simp] theorem State.handOut_ctrl_lineFault (s : State) : s.handOut.ctrl.lineFault = s.ctrl.lineFault := by
  rw [s.handOut_same.ctrl]

@[simp] theorem State.handOut_ctrl_holdoff (s : State) : s.handOut.ctrl.holdoff = s.ctrl.holdoff := by
  rw [s.handOut_same.ctrl]

@[simp] theorem State.handOut_ctrl_lastDetach (s : State) : s.handOut.ctrl.lastDetach = s.ctrl.lastDetach := by
  rw [s.handOut_same.ctrl]

@[simp] theorem State.handOut_record_state (s : State) (k : Nat) (h : k < 32) :
    s.handOut.records[k].state = s.records[k].state := by
  have hr := s.handOut_same.record ⟨k, h⟩
  simp only [Fin.getElem_fin] at hr
  rw [hr]

@[simp] theorem State.handOut_record_slot (s : State) (k : Nat) (h : k < 32) :
    s.handOut.records[k].slot = s.records[k].slot := by
  have hr := s.handOut_same.record ⟨k, h⟩
  simp only [Fin.getElem_fin] at hr
  rw [hr]

@[simp] theorem State.handOut_record_resource (s : State) (k : Nat) (h : k < 32) :
    s.handOut.records[k].resource = s.records[k].resource := by
  have hr := s.handOut_same.record ⟨k, h⟩
  simp only [Fin.getElem_fin] at hr
  rw [hr]

@[simp] theorem State.handOut_record_mode (s : State) (k : Nat) (h : k < 32) :
    s.handOut.records[k].mode = s.records[k].mode := by
  have hr := s.handOut_same.record ⟨k, h⟩
  simp only [Fin.getElem_fin] at hr
  rw [hr]

@[simp] theorem State.handOut_record_noWait (s : State) (k : Nat) (h : k < 32) :
    s.handOut.records[k].noWait = s.records[k].noWait := by
  have hr := s.handOut_same.record ⟨k, h⟩
  simp only [Fin.getElem_fin] at hr
  rw [hr]

@[simp] theorem State.handOut_record_waitLimit (s : State) (k : Nat) (h : k < 32) :
    s.handOut.records[k].waitLimit = s.records[k].waitLimit := by
  have hr := s.handOut_same.record ⟨k, h⟩
  simp only [Fin.getElem_fin] at hr
  rw [hr]

@[simp] theorem State.handOut_record_waitTimer (s : State) (k : Nat) (h : k < 32) :
    s.handOut.records[k].waitTimer = s.records[k].waitTimer := by
  have hr := s.handOut_same.record ⟨k, h⟩
  simp only [Fin.getElem_fin] at hr
  rw [hr]

@[simp] theorem State.handOut_record_cancelOwed (s : State) (k : Nat) (h : k < 32) :
    s.handOut.records[k].cancelOwed = s.records[k].cancelOwed := by
  have hr := s.handOut_same.record ⟨k, h⟩
  simp only [Fin.getElem_fin] at hr
  rw [hr]

@[simp] theorem State.handOut_record_dropReason (s : State) (k : Nat) (h : k < 32) :
    s.handOut.records[k].dropReason = s.records[k].dropReason := by
  have hr := s.handOut_same.record ⟨k, h⟩
  simp only [Fin.getElem_fin] at hr
  rw [hr]

@[simp] theorem State.handOut_record_outcome (s : State) (k : Nat) (h : k < 32) :
    s.handOut.records[k].outcome = s.records[k].outcome := by
  have hr := s.handOut_same.record ⟨k, h⟩
  simp only [Fin.getElem_fin] at hr
  rw [hr]

/-- The target of the EVICT in hand is kept. -/
@[simp] theorem State.handOut_target (s : State) :
    s.handOut.ctrl.evictInHand.map EvictInHand.target
      = s.ctrl.evictInHand.map EvictInHand.target := s.handOut_same.target

/-! ## Entering a station state -/

@[simp] theorem State.enter_station (st : StationState) (s : State) :
    (s.enter st).ctrl.station = st := by
  unfold State.enter
  rw [(State.handOut_same _).ctrl]
  rfl

/-! ## Cancelling -/

theorem State.cancel_notQueued {named : TxEntry → Bool} {s : State}
    (h : ∀ e ∈ s.tx.queue, named e = false) : s.cancel named = (s, .notQueued) := by
  have : s.tx.queue.find? named = none := by simpa using h
  simp [State.cancel, this]

theorem State.cancel_ready {named : TxEntry → Bool} {s : State} {before after : List TxEntry}
    {e : TxEntry} (hq : s.tx.queue = before ++ e :: after) (hb : ∀ x ∈ before, named x = false)
    (he : named e = true) (hs : e.state = .ready) :
    s.cancel named
      = ((s.mapTx fun t => { t with queue := before ++ after }).handOut, .removed) := by
  have hf : s.tx.queue.find? named = some e := by
    rw [hq, List.find?_append, List.find?_eq_none.2 (by simpa using hb)]
    simp [he]
  have hx : s.tx.queue.eraseP named = before ++ after := by
    rw [hq, List.eraseP_append_right _ (by simpa using hb), List.eraseP_cons_of_pos he]
  simp only [State.cancel, hf, hs]
  simp only [State.mapTx, hx]

theorem map_markCancelled_of_none {named : TxEntry → Bool} {l : List TxEntry}
    (h : ∀ x ∈ l, named x = true → x.state = .ready) : l.map (markCancelled named) = l := by
  induction l with
  | nil => rfl
  | cons x l ih =>
    have hx : (named x && decide (x.state = .active)) = false := by
      cases hn : named x
      · rfl
      · simp [h x (by simp) hn]
    simp only [List.map_cons, markCancelled, hx]
    rw [ih fun y hy => h y (by simp [hy])]
    rfl

theorem State.cancel_active {named : TxEntry → Bool} {s : State} {before after : List TxEntry}
    {e : TxEntry} (hq : s.tx.queue = before ++ e :: after) (hb : ∀ x ∈ before, named x = false)
    (he : named e = true) (hs : e.state = .active)
    (ha : ∀ x ∈ after, named x = true → x.state = .ready) :
    s.cancel named
      = (s.mapTx fun t => { t with queue := before ++ { e with cancel := true } :: after },
          .inFlight) := by
  have hf : s.tx.queue.find? named = some e := by
    rw [hq, List.find?_append, List.find?_eq_none.2 (by simpa using hb)]
    simp [he]
  have hx : s.tx.queue.map (markCancelled named) = before ++ { e with cancel := true } :: after := by
    rw [hq, List.map_append, List.map_cons,
      map_markCancelled_of_none fun x hx hn => by simp [hb x hx] at hn,
      map_markCancelled_of_none ha]
    simp [markCancelled, he, hs]
  unfold State.cancel
  rw [hf]
  dsimp only
  rw [hs]
  simp only [State.mapTx, hx, hs]

/-- A cancellation, whatever its answer, leaves everything but the queue and what handing out writes. -/
theorem State.cancel_same (named : TxEntry → Bool) (s : State) :
    SameButTakings s (s.cancel named).1 := by
  unfold State.cancel
  split
  · exact .refl s
  · split
    · constructor <;> simp
    · have h := State.handOut_same (s.mapTx fun t => { t with queue := t.queue.eraseP named })
      generalize (s.mapTx fun t => { t with queue := t.queue.eraseP named }).handOut = u at h
      obtain ⟨h1, h2, h3, h4, h5, h6, h7, h8, h9, h10, h11, h12, h13⟩ := h
      exact ⟨h1, h2, h3, h4, h5, h6, h7, h8, h9, by rw [h10]; rfl, h11, h12, h13⟩

theorem SameButTakings.withQueue {s : State} {q : List TxEntry} {t : State}
    (h : SameButTakings (s.mapTx fun t => { t with queue := q }) t) : SameButTakings s t := by
  obtain ⟨h1, h2, h3, h4, h5, h6, h7, h8, h9, h10, h11, h12, h13⟩ := h
  exact ⟨h1, h2, h3, h4, h5, h6, h7, h8, h9, by rw [h10]; rfl, h11, h12, h13⟩

/-- A cancellation by kind leaves everything but the queue and what handing out writes. -/
theorem State.cancelKind_same (kind : FrameKind) (s : State) :
    SameButTakings s (s.cancelKind kind) := by
  unfold State.cancelKind
  split
  · constructor <;> simp
  · exact .withQueue (State.handOut_same _)

/-- What a cancellation by kind leaves in the queue: the entries that it does not remove, the ACTIVE one
of the kind marked, and then the owed frames that were handed the places. -/
theorem State.cancelKind_queue (kind : FrameKind) (s : State) :
    ∃ extra, (s.cancelKind kind).tx.queue
        = (s.tx.queue.filter (keptBy (ofKind kind))).map (markCancelled (ofKind kind)) ++ extra
      ∧ ∀ e ∈ extra, e.state = .ready ∧ e.cancel = false ∧ admits s.ctrl.station e.kind = true := by
  unfold State.cancelKind
  split
  · exact ⟨[], by simp⟩
  · obtain ⟨extra, hq, he, _⟩ := State.handOut_queue (s.mapTx fun t =>
      { t with queue := (t.queue.filter (keptBy (ofKind kind))).map (markCancelled (ofKind kind)) })
    exact ⟨extra, hq, fun e h => ⟨(he e h).1, (he e h).2.1, (he e h).2.2.2⟩⟩

/-- What a cancellation by kind leaves of the kind, where no frame of it is owed: ACTIVE entries with the
cancel mark. -/
theorem State.cancelKind_left {kind : FrameKind} {s : State} (ho : ∀ o, s.Owes o → o.kind ≠ kind)
    {e : TxEntry} (he : e ∈ (s.cancelKind kind).tx.queue) (hk : ofKind kind e = true) :
    e.state = .active ∧ e.cancel = true := by
  have main : e ∈ (s.tx.queue.filter (keptBy (ofKind kind))).map (markCancelled (ofKind kind)) →
      e.state = .active ∧ e.cancel = true := by
    intro h
    obtain ⟨x, hx, rfl⟩ := List.mem_map.1 h
    have hkept := (List.mem_filter.1 hx).2
    unfold markCancelled at hk ⊢
    split
    · rename_i hc
      simp only [Bool.and_eq_true, decide_eq_true_eq] at hc
      exact ⟨hc.2, rfl⟩
    · rename_i hc
      rw [if_neg hc] at hk
      cases hs : x.state <;> simp_all [keptBy]
  unfold State.cancelKind at he
  split at he
  · exact main he
  · rcases State.handOut_mem _ he with h | ⟨o, hw, hkind, _⟩
    · exact main h
    · have : s.Owes o := by cases o <;> exact hw
      simp only [ofKind, Bool.and_eq_true, decide_eq_true_eq] at hk
      exact absurd (hkind.symm.trans hk.1) (ho o this)

/-- With nothing of the kind in the queue there is nothing to cancel. -/
theorem State.cancelKind_of_none {kind : FrameKind} {s : State}
    (h : ∀ e ∈ s.tx.queue, ofKind kind e = false) : s.cancelKind kind = s := by
  have hk : s.tx.queue.filter (keptBy (ofKind kind)) = s.tx.queue :=
    List.filter_eq_self.2 fun e he => by simp [keptBy, h e he]
  have hm : s.tx.queue.map (markCancelled (ofKind kind)) = s.tx.queue :=
    map_markCancelled_of_none fun e he hn => by simp [h e he] at hn
  have ha : s.tx.queue.all (keptBy (ofKind kind)) = true := by
    simp only [List.all_eq_true]
    intro e he
    simp [keptBy, h e he]
  simp [State.cancelKind, State.mapTx, hk, hm, ha]

end Sys2Proof.Machine
end

