-- ==== Sys2Proof/Laws/Ops.lean ====
section
/-! SUPPORT. What the other shared operations can do: due events, the taking of a command, records and
their notices, the flush and the clear, the end of an attempt, and the frame of an assembly. -/

namespace Sys2Proof.Machine

/-! ## Events and commands -/

theorem whenDue_of_due {due : Bool} (effect : State → State) (s : State) (h : due = true) :
    whenDue due effect s = .next (effect s) := by simp [whenDue, h]

theorem whenDue_of_not_due {due : Bool} (effect : State → State) (s : State) (h : due = false) :
    whenDue due effect s = .next s := by simp [whenDue, h]

theorem takeCommand_of_takes {i : Instr} (keep : Option Byte) (effect : State → Effect) {s : State}
    (h : s.Takes i) : takeCommand i keep effect s =
      .next ((effect s).after.mapPort (Port.taken keep (effect s).status (effect s).data)) :=
  if_pos h

theorem takeCommand_of_other {i j : Instr} (keep : Option Byte) (effect : State → Effect) {s : State}
    (h : s.port.complete = some j) (hne : j ≠ i) :
    takeCommand i keep effect s = .next (s.mapPort (Port.hold i)) := by
  refine if_neg ?_
  simp [h, hne]

/-- A command that answers without an effect changes the port only. -/
theorem takeCommand_of_answers {i : Instr} {c : Byte} (effect : State → Effect) {s : State}
    {status : Status} {data : List Byte} (h : s.Takes i) (he : effect s = ⟨s, status, data⟩) :
    takeCommand i (some c) effect s = .next (s.answered c status data) := by
  rw [takeCommand_of_takes _ _ h, he]
  rfl

theorem Port.taken_store (keep : Option Byte) (status : Status) (data : List Byte) (p : Port) :
    (p.taken keep status data).store = p.store := by
  unfold Port.taken Port.answered
  cases keep <;> cases p.complete <;> rfl

theorem Port.taken_station (keep : Option Byte) (status : Status) (data : List Byte) (p : Port) :
    (p.taken keep status data).station = p.station := by
  unfold Port.taken Port.answered
  cases keep <;> cases p.complete <;> rfl

/-! ## Characters as numbers -/

theorem stationOf_byteOf (x : Station) : stationOf (byteOf x.val) = some x := by
  have : (byteOf x.val).toNat = x.val := by
    simp only [byteOf, BitVec.toNat_ofNat]
    omega
  simp [stationOf, this]

theorem recordOf_byteOf (k : RecordIndex) : recordOf (byteOf k.val) = some k := by
  have : (byteOf k.val).toNat = k.val := by
    simp only [byteOf, BitVec.toNat_ofNat]
    omega
  simp [recordOf, this]

theorem resourceOf_byteOf (r : Resource) : resourceOf (byteOf r.val) = some r := by
  have : (byteOf r.val).toNat = r.val := by
    simp only [byteOf, BitVec.toNat_ofNat]
    omega
  simp [resourceOf, this]

theorem stationOf_eq_some {c : Byte} {x : Station} : stationOf c = some x ↔ x.val = c.toNat := by
  unfold stationOf
  split
  · simp only [Option.some.injEq, Fin.ext_iff]
    exact eq_comm
  · simp only [reduceCtorEq, false_iff]
    omega

theorem recordOf_eq_some {c : Byte} {k : RecordIndex} : recordOf c = some k ↔ k.val = c.toNat := by
  unfold recordOf
  split
  · simp only [Option.some.injEq, Fin.ext_iff]
    exact eq_comm
  · simp only [reduceCtorEq, false_iff]
    omega

theorem resourceOf_eq_some {c : Byte} {r : Resource} : resourceOf c = some r ↔ r.val = c.toNat := by
  unfold resourceOf
  split
  · simp only [Option.some.injEq, Fin.ext_iff]
    exact eq_comm
  · simp only [reduceCtorEq, false_iff]
    omega

theorem slotOf_eq_some {c : Byte} {x : Slot} : slotOf c = some x ↔ x.val = c.toNat := by
  unfold slotOf
  split
  · simp only [Option.some.injEq, Fin.ext_iff]
    exact eq_comm
  · simp only [reduceCtorEq, false_iff]
    omega

theorem recordOf_eq_none {c : Byte} : recordOf c = none ↔ 31 < c.toNat := by
  unfold recordOf
  split <;> simp <;> omega

theorem resourceOf_eq_none {c : Byte} : resourceOf c = none ↔ 63 < c.toNat := by
  unfold resourceOf
  split <;> simp <;> omega

theorem slotOf_eq_none {c : Byte} : slotOf c = none ↔ 7 < c.toNat := by
  unfold slotOf
  split <;> simp <;> omega

theorem byteOf_toNat (c : Byte) : byteOf c.toNat = c := by simp [byteOf]

/-! ## Records -/

@[simp] theorem State.changeRecord_pending (k : RecordIndex) (f : ClaimRecord → ClaimRecord)
    (s : State) : (s.changeRecord k f).pending = s.pending := rfl

@[simp] theorem State.changeRecord_line (k : RecordIndex) (f : ClaimRecord → ClaimRecord)
    (s : State) : (s.changeRecord k f).line = s.line := rfl

@[simp] theorem State.changeRecord_tx (k : RecordIndex) (f : ClaimRecord → ClaimRecord)
    (s : State) : (s.changeRecord k f).tx = s.tx := rfl

@[simp] theorem State.changeRecord_rx (k : RecordIndex) (f : ClaimRecord → ClaimRecord)
    (s : State) : (s.changeRecord k f).rx = s.rx := rfl

@[simp] theorem State.changeRecord_table (k : RecordIndex) (f : ClaimRecord → ClaimRecord)
    (s : State) : (s.changeRecord k f).table = s.table := rfl

@[simp] theorem State.changeRecord_ctrl (k : RecordIndex) (f : ClaimRecord → ClaimRecord)
    (s : State) : (s.changeRecord k f).ctrl = s.ctrl := rfl

@[simp] theorem State.changeRecord_records (k : RecordIndex) (f : ClaimRecord → ClaimRecord)
    (s : State) : (s.changeRecord k f).records = s.records.set k (f s.records[k]) := rfl

@[simp] theorem State.changeRecord_notices (k : RecordIndex) (f : ClaimRecord → ClaimRecord)
    (s : State) : (s.changeRecord k f).notices
      = s.notices.post (.slot (f s.records[k]).slot) (byteOf k.val) := by
  simp [State.changeRecord]

@[simp] theorem State.changeRecord_port (k : RecordIndex) (f : ClaimRecord → ClaimRecord)
    (s : State) : (s.changeRecord k f).port = s.port := rfl

@[simp] theorem State.changeRecord_timebase (k : RecordIndex) (f : ClaimRecord → ClaimRecord)
    (s : State) : (s.changeRecord k f).timebase = s.timebase := rfl

@[simp] theorem State.changeRecord_lineIn (k : RecordIndex) (f : ClaimRecord → ClaimRecord)
    (s : State) : (s.changeRecord k f).lineIn = s.lineIn := rfl

@[simp] theorem State.changeRecord_freeCount (k : RecordIndex) (f : ClaimRecord → ClaimRecord)
    (s : State) : (s.changeRecord k f).freeCount = s.freeCount := rfl

/-! ## Flush and clear -/

/-- An own frame in CONTEND or SENDING is broken off; the line interface is untouched otherwise (R80). -/
theorem State.flush_line (s : State) : s.flush.line =
    if s.line.state = .contend ∨ s.line.state = .sending then s.line.driveBreak s.ownDrive
    else s.line := by
  unfold State.flush
  split <;> simp_all

@[simp] theorem State.flush_tx (s : State) : s.flush.tx = .empty := rfl

@[simp] theorem State.flush_pending (s : State) : s.flush.pending = s.pending := by
  unfold State.flush
  split <;> rfl

@[simp] theorem State.flush_rx (s : State) : s.flush.rx = s.rx := by
  unfold State.flush
  split <;> rfl

@[simp] theorem State.flush_table (s : State) : s.flush.table = s.table := by
  unfold State.flush
  split <;> rfl

@[simp] theorem State.flush_ctrl (s : State) : s.flush.ctrl = s.ctrl := by
  unfold State.flush
  split <;> rfl

@[simp] theorem State.flush_records (s : State) : s.flush.records = s.records := by
  unfold State.flush
  split <;> rfl

@[simp] theorem State.flush_notices (s : State) : s.flush.notices = s.notices := by
  unfold State.flush
  split <;> rfl

@[simp] theorem State.flush_port (s : State) : s.flush.port = s.port := by
  unfold State.flush
  split <;> rfl

@[simp] theorem State.flush_timebase (s : State) : s.flush.timebase = s.timebase := by
  unfold State.flush
  split <;> rfl

@[simp] theorem State.flush_lineIn (s : State) : s.flush.lineIn = s.lineIn := by
  unfold State.flush
  split <;> rfl

@[simp] theorem State.flush_freeCount (s : State) : s.flush.freeCount = s.freeCount := by
  unfold State.flush
  split <;> rfl

@[simp] theorem State.clearGroup_pending (s : State) : s.clearGroup.pending = s.pending := by
  simp [State.clearGroup]

@[simp] theorem State.clearGroup_line (s : State) : s.clearGroup.line = s.flush.line := rfl

@[simp] theorem State.clearGroup_tx (s : State) : s.clearGroup.tx = .empty := rfl

@[simp] theorem State.clearGroup_rx (s : State) : s.clearGroup.rx = s.rx.clear := by
  simp [State.clearGroup]

@[simp] theorem State.clearGroup_table (s : State) : s.clearGroup.table = s.table := by
  simp [State.clearGroup]

@[simp] theorem State.clearGroup_ctrl (s : State) :
    s.clearGroup.ctrl = s.ctrl.cleared s.ownE := by
  simp [State.clearGroup, State.ownE]

@[simp] theorem State.clearGroup_records (s : State) : s.clearGroup.records = s.records := by
  simp [State.clearGroup]

@[simp] theorem State.clearGroup_notices (s : State) : s.clearGroup.notices = s.notices := by
  simp [State.clearGroup]

@[simp] theorem State.clearGroup_port (s : State) : s.clearGroup.port = s.port := by
  simp [State.clearGroup]

@[simp] theorem State.clearGroup_timebase (s : State) : s.clearGroup.timebase = s.timebase := by
  simp [State.clearGroup]

@[simp] theorem State.clearGroup_lineIn (s : State) : s.clearGroup.lineIn = s.lineIn := by
  simp [State.clearGroup]

@[simp] theorem State.clearGroup_freeCount (s : State) : s.clearGroup.freeCount = s.freeCount := by
  simp [State.clearGroup]

/-! ## The records at a detach (R155, R169) -/

@[simp] theorem State.loseRecord_pending (s : State) (k : RecordIndex) :
    (s.loseRecord k).pending = s.pending := by
  unfold State.loseRecord
  split <;> rfl

@[simp] theorem State.loseRecord_line (s : State) (k : RecordIndex) :
    (s.loseRecord k).line = s.line := by
  unfold State.loseRecord
  split <;> rfl

@[simp] theorem State.loseRecord_tx (s : State) (k : RecordIndex) :
    (s.loseRecord k).tx = s.tx := by
  unfold State.loseRecord
  split <;> rfl

@[simp] theorem State.loseRecord_rx (s : State) (k : RecordIndex) :
    (s.loseRecord k).rx = s.rx := by
  unfold State.loseRecord
  split <;> rfl

@[simp] theorem State.loseRecord_table (s : State) (k : RecordIndex) :
    (s.loseRecord k).table = s.table := by
  unfold State.loseRecord
  split <;> rfl

@[simp] theorem State.loseRecord_ctrl (s : State) (k : RecordIndex) :
    (s.loseRecord k).ctrl = s.ctrl := by
  unfold State.loseRecord
  split <;> rfl

@[simp] theorem State.loseRecord_port (s : State) (k : RecordIndex) :
    (s.loseRecord k).port = s.port := by
  unfold State.loseRecord
  split <;> rfl

@[simp] theorem State.loseRecord_timebase (s : State) (k : RecordIndex) :
    (s.loseRecord k).timebase = s.timebase := by
  unfold State.loseRecord
  split <;> rfl

@[simp] theorem State.loseRecord_lineIn (s : State) (k : RecordIndex) :
    (s.loseRecord k).lineIn = s.lineIn := by
  unfold State.loseRecord
  split <;> rfl

@[simp] theorem State.loseRecord_freeCount (s : State) (k : RecordIndex) :
    (s.loseRecord k).freeCount = s.freeCount := by
  unfold State.loseRecord
  split <;> rfl

/-- A record after a detach: a live one is LOST, and no frame mark stands. -/
def ClaimRecord.afterDetach (r : ClaimRecord) : ClaimRecord :=
  { if r.state.live then r.completed .lost else r with mark := .none }

theorem State.loseRecord_self (s : State) (k : RecordIndex) :
    (s.loseRecord k).records[k] = s.records[k].afterDetach := by
  unfold State.loseRecord ClaimRecord.afterDetach
  split <;> simp_all

theorem State.loseRecord_other (s : State) {k j : RecordIndex} (h : j ≠ k) :
    (s.loseRecord k).records[j] = s.records[j] := by
  have hv : ¬ k.val = j.val := fun hv => h (Fin.ext hv.symm)
  unfold State.loseRecord
  split <;> simp_all

/-- The records after the loss of those in `ks`, each named once. -/
theorem State.loseRecords_record (ks : List RecordIndex) (s : State) (hd : ks.Nodup)
    (j : RecordIndex) : (ks.foldl State.loseRecord s).records[j] =
      if j ∈ ks then s.records[j].afterDetach else s.records[j] := by
  induction ks generalizing s with
  | nil => rfl
  | cons k ks ih =>
    have hk := (List.nodup_cons.1 hd).1
    rw [List.foldl_cons, ih _ (List.nodup_cons.1 hd).2]
    by_cases h : j = k
    · subst h
      rw [if_neg hk, if_pos (by simp), State.loseRecord_self]
    · rw [State.loseRecord_other s h]
      simp [h]

/-- The notices that a detach posts for the records: one for each live record, in order (R152, R169). -/
theorem State.loseRecords_notices (ks : List RecordIndex) (s : State) (hd : ks.Nodup) :
    (ks.foldl State.loseRecord s).notices
      = s.postsFor (ks.filter fun k => s.records[k].state.live) := by
  induction ks generalizing s with
  | nil => rfl
  | cons k ks ih =>
    obtain ⟨hk, hks⟩ := List.nodup_cons.1 hd
    have live : ∀ j ∈ ks, (s.loseRecord k).records[j] = s.records[j] := fun j hj =>
      State.loseRecord_other s fun h => hk (h ▸ hj)
    have posts : ∀ (l : List RecordIndex), (∀ j ∈ l, (s.loseRecord k).records[j] = s.records[j]) →
        ∀ q : NoticeQueue,
        l.foldl (fun q j => q.post (.slot (s.loseRecord k).records[j].slot) (byteOf j.val)) q
          = l.foldl (fun q j => q.post (.slot s.records[j].slot) (byteOf j.val)) q := by
      intro l hl
      induction l with
      | nil => intro q; rfl
      | cons j l ihl =>
        intro q
        rw [List.foldl_cons, List.foldl_cons, hl j (by simp), ihl fun x hx => hl x (by simp [hx])]
    have filter : (ks.filter fun j => (s.loseRecord k).records[j].state.live)
        = ks.filter fun j => s.records[j].state.live :=
      List.filter_congr fun j hj => by rw [live j hj]
    rw [List.foldl_cons, ih _ hks, State.postsFor, filter,
      posts _ fun j hj => live j (List.mem_filter.1 hj).1]
    by_cases hl : s.records[k].state.live = true
    · rw [State.postsFor, List.filter_cons, if_pos hl, List.foldl_cons, State.loseRecord, if_pos hl]
      simp [State.changeRecord, State.post, ClaimRecord.completed]
    · rw [State.postsFor, List.filter_cons, if_neg hl, State.loseRecord, if_neg hl]
      rfl

@[simp] theorem State.loseRecords_pending (ks : List RecordIndex) (s : State) :
    (ks.foldl State.loseRecord s).pending = s.pending := by
  induction ks generalizing s with
  | nil => rfl
  | cons k ks ih => simp [ih]

@[simp] theorem State.loseRecords_line (ks : List RecordIndex) (s : State) :
    (ks.foldl State.loseRecord s).line = s.line := by
  induction ks generalizing s with
  | nil => rfl
  | cons k ks ih => simp [ih]

@[simp] theorem State.loseRecords_tx (ks : List RecordIndex) (s : State) :
    (ks.foldl State.loseRecord s).tx = s.tx := by
  induction ks generalizing s with
  | nil => rfl
  | cons k ks ih => simp [ih]

@[simp] theorem State.loseRecords_rx (ks : List RecordIndex) (s : State) :
    (ks.foldl State.loseRecord s).rx = s.rx := by
  induction ks generalizing s with
  | nil => rfl
  | cons k ks ih => simp [ih]

@[simp] theorem State.loseRecords_table (ks : List RecordIndex) (s : State) :
    (ks.foldl State.loseRecord s).table = s.table := by
  induction ks generalizing s with
  | nil => rfl
  | cons k ks ih => simp [ih]

@[simp] theorem State.loseRecords_ctrl (ks : List RecordIndex) (s : State) :
    (ks.foldl State.loseRecord s).ctrl = s.ctrl := by
  induction ks generalizing s with
  | nil => rfl
  | cons k ks ih => simp [ih]

@[simp] theorem State.loseRecords_port (ks : List RecordIndex) (s : State) :
    (ks.foldl State.loseRecord s).port = s.port := by
  induction ks generalizing s with
  | nil => rfl
  | cons k ks ih => simp [ih]

@[simp] theorem State.loseRecords_timebase (ks : List RecordIndex) (s : State) :
    (ks.foldl State.loseRecord s).timebase = s.timebase := by
  induction ks generalizing s with
  | nil => rfl
  | cons k ks ih => simp [ih]

@[simp] theorem State.loseRecords_lineIn (ks : List RecordIndex) (s : State) :
    (ks.foldl State.loseRecord s).lineIn = s.lineIn := by
  induction ks generalizing s with
  | nil => rfl
  | cons k ks ih => simp [ih]

@[simp] theorem State.loseRecords_freeCount (ks : List RecordIndex) (s : State) :
    (ks.foldl State.loseRecord s).freeCount = s.freeCount := by
  induction ks generalizing s with
  | nil => rfl
  | cons k ks ih => simp [ih]

/-! ## The end of an attempt (R74, R75, R79) -/

/-- With one ACTIVE entry in its place, the entry that `find?` gives is it. -/
theorem State.Attempt.find {before : List TxEntry} {e : TxEntry} {after : List TxEntry} {s : State}
    (h : s.Attempt before e after) :
    s.tx.queue.find? (fun x => decide (x.state = .active)) = some e := by
  obtain ⟨hq, he, hr⟩ := h
  have hb : before.find? (fun x => decide (x.state = .active)) = none := by
    rw [List.find?_eq_none]
    intro x hx
    simp [hr x (by simp [hx])]
  rw [hq, List.find?_append, hb]
  simp [he]

theorem State.Attempt.erase {before : List TxEntry} {e : TxEntry} {after : List TxEntry} {s : State}
    (h : s.Attempt before e after) :
    s.tx.queue.eraseP (fun x => decide (x.state = .active)) = before ++ after := by
  obtain ⟨hq, he, hr⟩ := h
  rw [hq, List.eraseP_append_right, List.eraseP_cons_of_pos (by simp [he])]
  intro x hx
  simp [hr x (by simp [hx])]

theorem State.Attempt.ready {before : List TxEntry} {e : TxEntry} {after : List TxEntry} {s : State}
    (h : s.Attempt before e after) :
    s.tx.queue.map (fun x => { x with state := .ready }) =
      before ++ { e with state := .ready } :: after := by
  obtain ⟨hq, he, hr⟩ := h
  have same : ∀ l : List TxEntry, (∀ x ∈ l, x.state = .ready) →
      l.map (fun x => { x with state := .ready }) = l := by
    intro l hl
    induction l with
    | nil => rfl
    | cons x l ih =>
      rw [List.map_cons, ih fun y hy => hl y (by simp [hy])]
      have := hl x (by simp)
      cases x
      simp_all
  rw [hq, List.map_append, List.map_cons, same _ fun x hx => hr x (by simp [hx]),
    same _ fun x hx => hr x (by simp [hx])]

/-- An attempt that ends below the limit, its entry without a cancel mark: the entry is READY in its
place, and a failure is counted (R73, R74). -/
theorem State.endAttempt_ready {before : List TxEntry} {e : TxEntry} {after : List TxEntry}
    {s : State} (h : s.Attempt before e after) (hc : e.cancel = false) (failed : Bool)
    (hl : failed = true → s.tx.attempts < 15) :
    s.endAttempt failed = { s with tx := { s.tx with
      queue := before ++ { e with state := .ready } :: after,
      attempts := if failed then s.tx.attempts + 1 else s.tx.attempts, frame := [] } } := by
  have hn : (failed && decide (16 ≤ s.tx.attempts + 1)) = false := by
    cases failed
    · rfl
    · simp only [Bool.true_and, decide_eq_false_iff_not]
      have := hl rfl
      omega
  unfold State.endAttempt
  rw [h.find]
  dsimp only
  rw [hn, if_neg (by simp), if_neg (by simp [hc])]
  simp only [State.mapTx, h.ready]

/-- An attempt that ends below the limit with a cancel mark: the entry is removed with WITHDRAWN to its
owner, and the freed place is handed out (R79). -/
theorem State.endAttempt_cancel {before : List TxEntry} {e : TxEntry} {after : List TxEntry}
    {s : State} (h : s.Attempt before e after) (hc : e.cancel = true) (failed : Bool)
    (hl : failed = true → s.tx.attempts < 15) :
    s.endAttempt failed = State.handOut { s with tx :=
      { s.tx with
        queue := before ++ after,
        attempts := if failed then s.tx.attempts + 1 else s.tx.attempts, frame := [],
        reports := s.tx.reports ++ [.withdrawn e.kind e.owner] } } := by
  have hn : (failed && decide (16 ≤ s.tx.attempts + 1)) = false := by
    cases failed
    · rfl
    · simp only [Bool.true_and, decide_eq_false_iff_not]
      have := hl rfl
      omega
  unfold State.endAttempt
  rw [h.find]
  dsimp only
  rw [hn, if_neg (by simp), if_pos hc]
  simp only [State.mapTx, h.erase]

/-- The sixteenth failure (R77). -/
theorem State.endAttempt_limit {before : List TxEntry} {e : TxEntry} {after : List TxEntry}
    {s : State} (h : s.Attempt before e after) (hl : 15 ≤ s.tx.attempts) :
    s.endAttempt true = s.flush.detach .attemptLimit := by
  unfold State.endAttempt
  rw [h.find]
  have : 16 ≤ s.tx.attempts + 1 := by omega
  simp [this]

/-- The acceptance of the own frame (R75). -/
theorem State.acceptAttempt_eq {before : List TxEntry} {e : TxEntry} {after : List TxEntry}
    {s : State} (h : s.Attempt before e after) :
    s.acceptAttempt = State.handOut { s with tx :=
      { s.tx with
        queue := before ++ after, attempts := 0, frame := [],
        reports := s.tx.reports ++ [.accepted e.kind e.owner] } } := by
  unfold State.acceptAttempt
  rw [h.find]
  simp only [State.mapTx, h.erase]

/-! ## Frames -/

/-- A frame in progress that is not short has its length and as many characters as R36 requires. -/
theorem Assembly.whole {a : Assembly} (h : a.short = false) :
    ∃ l, a.length = some l ∧ frameLength l ≤ a.chars.length := by
  unfold Assembly.short at h
  split at h
  · exact absurd h (by simp)
  · rename_i l hl
    exact ⟨l, hl, by simpa using h⟩

/-- Of a whole frame no character is missing, so no free value enters it (R87; log entry 7). -/
theorem Assembly.frame_of_whole {a : Assembly} (h : a.short = false) (missing other : Nat → Byte) :
    a.frame missing = a.frame other := by
  obtain ⟨l, hl, hn⟩ := Assembly.whole h
  have hat (i : Nat) (hi : i < a.chars.length) :
      ((a.chars.map RxChar.value)[i]?).getD (missing i)
        = ((a.chars.map RxChar.value)[i]?).getD (other i) := by simp [hi]
  have h8 : 8 ≤ frameLength l := by unfold frameLength; split <;> omega
  have hbody : (List.range l.toNat).map (fun i =>
        ((a.chars.map RxChar.value)[6 + i]?).getD (missing (6 + i)))
      = (List.range l.toNat).map (fun i =>
        ((a.chars.map RxChar.value)[6 + i]?).getD (other (6 + i))) ∨ ¬ l.toNat ≤ 24 := by
    by_cases h24 : l.toNat ≤ 24
    · refine .inl (List.map_congr_left fun i hi => hat _ ?_)
      have := List.mem_range.1 hi
      simp only [frameLength, h24, if_true] at hn
      omega
    · exact .inr h24
  unfold Assembly.frame
  simp only [hl]
  rw [hat 0 (by omega), hat 1 (by omega), hat 2 (by omega), hat 3 (by omega), hat 4 (by omega)]
  rcases hbody with hb | hb
  · rw [hb]
  · simp only [if_neg hb]

/-- The body of a whole frame: its characters 7 to 6 + L (R35, R87). -/
theorem Assembly.frame_body_of_whole {a : Assembly} {l : Byte} (h : a.short = false)
    (hl : a.length = some l) (h24 : l.toNat ≤ 24) (missing : Nat → Byte) :
    (a.frame missing).body = ((a.chars.map RxChar.value).drop 6).take l.toNat := by
  obtain ⟨l', hl', hn⟩ := Assembly.whole h
  rw [hl] at hl'
  cases hl'
  simp only [frameLength, h24, if_true] at hn
  simp only [Assembly.frame, hl, h24, if_true]
  apply List.ext_getElem
  · simp; omega
  · intro i h1 h2
    have : i < l.toNat := by simpa using h1
    simp [show 6 + i < a.chars.length by omega]

/-! ## Reports that wait for a record -/

/-- A change of a record that leaves it as it is leaves the state as it is. -/
theorem State.mapRecord_of_eq {s : State} {k : RecordIndex} {f : ClaimRecord → ClaimRecord}
    (h : f s.records[k] = s.records[k]) : s.mapRecord k f = s := by
  unfold State.mapRecord
  rw [h]
  simp only [Fin.getElem_fin, Vector.set_getElem_self]

/-- A report taken for a FREE record with its frame mark at NONE restarts the presence timer of a
station in a group when it is an ACCEPTED, and does nothing else (R132, R155). -/
theorem State.takeReport_of_free {s : State} {k : RecordIndex} {r : TxReport}
    (owner : r.owner = .claimUnit k) (free : s.records[k].state = .free)
    (mark : s.records[k].mark = .none) :
    s.takeReport r = match r with
      | .accepted _ _ => s.presenceHeard
      | .withdrawn _ _ => s := by
  have unmark : ∀ kind, (s.records[k].unmark kind) = s.records[k] := by
    intro kind
    unfold ClaimRecord.unmark markOf
    rw [mark]
    split <;> split <;> first | contradiction | (rw [← mark])
  cases r with
  | accepted kind o =>
    cases owner
    simp only [State.takeReport, State.takeAccepted]
    refine State.mapRecord_of_eq ?_
    unfold State.presenceHeard
    split
    · exact unmark kind
    · exact unmark kind
  | withdrawn kind o =>
    cases owner
    simp only [State.takeReport, State.takeWithdrawn]
    rw [State.mapRecord_of_eq (unmark kind), free]

/-- Every report that waits for a FREE record with its frame mark at NONE taken: the reports are gone,
and an ACCEPTED among them restarts the presence timer of a station in a group. -/
theorem State.takeReportsOn_of_free {s : State} {k : RecordIndex}
    (free : s.records[k].state = .free) (mark : s.records[k].mark = .none) :
    let t := s.mapTx fun t =>
      { t with reports := t.reports.filter fun r => decide (r.owner ≠ .claimUnit k) }
    ((∃ kind, .accepted kind (.claimUnit k) ∈ s.tx.reports) → s.takeReportsOn k = t.presenceHeard)
      ∧ ((∀ kind, .accepted kind (.claimUnit k) ∉ s.tx.reports) → s.takeReportsOn k = t) := by
  have twice : ∀ t : State, t.presenceHeard.presenceHeard = t.presenceHeard := by
    intro t
    cases h : t.ctrl.station.inGroup <;>
      simp [State.presenceHeard, h, State.restartPresence, State.mapCtrl, State.presenceInterval]
  have fold : ∀ (l : List TxReport) (t : State), (∀ r ∈ l, r.owner = .claimUnit k) →
      t.records[k].state = .free → t.records[k].mark = .none →
      ((∃ kind, .accepted kind (.claimUnit k) ∈ l) → l.foldl State.takeReport t = t.presenceHeard)
        ∧ ((∀ kind, .accepted kind (.claimUnit k) ∉ l) → l.foldl State.takeReport t = t) := by
    intro l
    induction l with
    | nil => intro t _ _ _; simp
    | cons r l ih =>
      intro t owner free mark
      have rest := fun x hx => owner x (List.mem_cons_of_mem r hx)
      have kept : t.presenceHeard.records = t.records := by
        unfold State.presenceHeard; split <;> rfl
      have taken := State.takeReport_of_free (owner r List.mem_cons_self) free mark
      rw [List.foldl_cons, taken]
      cases r with
      | accepted kind o =>
        cases owner _ List.mem_cons_self
        obtain ⟨one, none⟩ := ih t.presenceHeard rest (by rw [kept]; exact free)
          (by rw [kept]; exact mark)
        refine ⟨fun _ => ?_, fun h => absurd List.mem_cons_self (h kind)⟩
        by_cases h : ∃ kind, .accepted kind (.claimUnit k) ∈ l
        · exact (one h).trans (twice t)
        · exact none fun kind hk => h ⟨kind, hk⟩
      | withdrawn kind o =>
        obtain ⟨one, none⟩ := ih t rest free mark
        exact ⟨fun ⟨kind, h⟩ => one ⟨kind, by simpa using h⟩,
          fun h => none fun kind hk => h kind (List.mem_cons_of_mem _ hk)⟩
  intro t
  obtain ⟨one, none⟩ := fold (s.tx.reports.filter fun r => decide (r.owner = .claimUnit k)) t
    (by simp) free mark
  exact ⟨fun ⟨kind, h⟩ => one ⟨kind, by simp [h, TxReport.owner]⟩,
    fun h => none fun kind hk => h kind (List.mem_filter.1 hk).1⟩

/-- The withdrawal of a QUEUED claim whose CLAIM entry is READY: the entry leaves the queue, its place is
handed out, and the record is DONE, posted to its slot (R78, R162, R164, R168). -/
theorem State.withdrawQueued_ready {k : RecordIndex} {s : State} {before after : List TxEntry}
    {e : TxEntry} (reason : CancelReason) (mark : s.records[k].mark = .claim)
    (queue : s.tx.queue = before ++ e :: after) (owner : e.owner = .claimUnit k)
    (first : ∀ x ∈ before, x.owner ≠ .claimUnit k) (ready : e.state = .ready) :
    let freed := State.handOut { s with
      tx := { s.tx with queue := before ++ after },
      records := s.records.set k { s.records[k] with waitTimer := none } }
    s.withdrawQueued reason k =
      { freed with
        records := freed.records.set k
          { s.records[k].completed reason.outcome with mark := .none },
        notices := s.notices.post (.slot s.records[k].slot) (byteOf k.val) } := by
  have start : (s.mapRecord k fun r => { r with waitTimer := none }).records[k].mark = .claim := by
    simpa [State.mapRecord] using mark
  have cancelled := State.cancel_ready (named := ofRecord k)
    (s := s.mapRecord k fun r => { r with waitTimer := none }) queue
    (fun x hx => by simp [ofRecord, first x hx]) (by simp [ofRecord, owner]) ready
  have same := State.handOut_same { s with
    tx := { s.tx with queue := before ++ after },
    records := s.records.set k { s.records[k] with waitTimer := none } }
  unfold State.withdrawQueued
  simp only [start, cancelled]
  change State.changeRecord k _ (State.handOut { s with
    tx := { s.tx with queue := before ++ after },
    records := s.records.set k { s.records[k] with waitTimer := none } }) = _
  generalize State.handOut _ = freed at same
  have kept := same.record k
  simp only [Fin.getElem_fin, Vector.getElem_set_self] at kept
  have slot := congrArg ClaimRecord.slot kept
  have resource := congrArg ClaimRecord.resource kept
  have mode := congrArg ClaimRecord.mode kept
  have noWait := congrArg ClaimRecord.noWait kept
  have waitLimit := congrArg ClaimRecord.waitLimit kept
  simp only [State.changeRecord, State.mapRecord, State.post, State.mapNotices, same.notices,
    ClaimRecord.completed, Fin.getElem_fin, Vector.getElem_set_self, slot, resource, mode, noWait,
    waitLimit]

/-! ## An owed DROP, and silence reports -/

/-- The DROP of a record owed while nothing else waits for a place is queued at once (R67, R156). -/
theorem State.dropRecord_of_owedLaw {s : State} {k : RecordIndex} (reason : DropReason)
    (law : s.OwedLaw) (place : s.tx.queue.length < 8)
    (gate : s.ctrl.station = .member ∨ s.ctrl.station = .leaving)
    (guard : ∀ e ∈ s.tx.queue, e.owner ≠ .claimUnit k) :
    s.dropRecord reason k =
      (s.changeRecord k fun r => { r.dropping reason with owedDrop := false, mark := .drop }).enqueue
        (.fresh .drop (.claimUnit k) [byteOf s.records[k].resource.val, byteOf k.val]) := by
  have gate' : admits s.ctrl.station .drop = true := by rcases gate with h | h <;> rw [h] <;> rfl
  have guard' : guardMet s.tx.queue .drop (.claimUnit k) = true := by
    simpa [guardMet] using guard
  have only : ∀ x, s.Owes x → admits s.ctrl.station x.kind = true →
      guardMet s.tx.queue x.kind x.owner = false :=
    fun x hx => (law.resolve_left (by omega)) x (State.mem_owedFrames.2 hx)
  unfold State.dropRecord
  rw [State.handOut_of_only (o := .drop k)]
  · simp [State.taking, State.markTaken, State.changeRecord, State.mapRecord, State.enqueue,
      State.mapTx, State.post, State.mapNotices, ClaimRecord.dropping, OwedFrame.body,
      OwedFrame.kind, OwedFrame.owner]
  · simpa using place
  · simp [State.Owes]
  · rw [State.changeRecord_ctrl]; exact gate'
  · rw [State.changeRecord_tx]; exact guard'
  · intro x hx hne ha
    simp only [State.changeRecord_tx, State.changeRecord_ctrl] at ha ⊢
    refine only x ?_ ha
    cases x <;> simp_all [State.Owes, Vector.getElem_set]
    split at hx
    · rename_i e; exact absurd (Fin.ext e).symm hne
    · exact hx

/-- A silence report of a station that no eviction waits for restarts its timer, if one is kept, and does
nothing else (R97, R134, R138). -/
theorem State.silenceReport_of_unlisted {s : State} {x : Station}
    (h : s.ctrl.silence[x] = none ∨ x ∉ s.ctrl.evictions) :
    s.silenceReport x = { s with ctrl := s.heardFrom x } := by
  unfold State.silenceReport
  split
  · rename_i none
    simp [State.heardFrom, none]
  · rename_i timer kept
    have unlisted : x ∉ s.ctrl.evictions := h.resolve_left (by rw [kept]; simp)
    unfold State.withdrawEviction
    rw [if_neg (by simpa using unlisted)]
    simp [State.mapCtrl, State.heardFrom, kept, SilenceTimer.start, State.groupE, evictionTimeout]

end Sys2Proof.Machine
end

