-- ==== Sys2Proof/Laws/Untouched.lean ====
section
/-! SUPPORT. The blocks of State that each operation of the meanings leaves as they are. No operation here
touches the commands that wait, what the outside does to LINE, or the local port (section 0.3: only the
host's own commands and characters change the port). -/

namespace Sys2Proof.Machine

@[simp] theorem State.cancel_untouched (s : State) (named : TxEntry → Bool) :
    (s.cancel named).1.pending = s.pending
      ∧ (s.cancel named).1.line = s.line
      ∧ (s.cancel named).1.rx = s.rx
      ∧ (s.cancel named).1.table = s.table
      ∧ (s.cancel named).1.notices = s.notices
      ∧ (s.cancel named).1.port = s.port
      ∧ (s.cancel named).1.timebase = s.timebase
      ∧ (s.cancel named).1.lineIn = s.lineIn
      ∧ (s.cancel named).1.freeCount = s.freeCount := by
  have h := s.cancel_same named
  exact ⟨h.pending, h.line, h.rx, h.table, h.notices, h.port, h.timebase, h.lineIn, h.freeCount⟩

@[simp] theorem State.cancelKind_untouched (s : State) (kind : FrameKind) :
    (s.cancelKind kind).pending = s.pending
      ∧ (s.cancelKind kind).line = s.line
      ∧ (s.cancelKind kind).rx = s.rx
      ∧ (s.cancelKind kind).table = s.table
      ∧ (s.cancelKind kind).notices = s.notices
      ∧ (s.cancelKind kind).port = s.port
      ∧ (s.cancelKind kind).timebase = s.timebase
      ∧ (s.cancelKind kind).lineIn = s.lineIn
      ∧ (s.cancelKind kind).freeCount = s.freeCount := by
  have h := s.cancelKind_same kind
  exact ⟨h.pending, h.line, h.rx, h.table, h.notices, h.port, h.timebase, h.lineIn, h.freeCount⟩

@[simp] theorem State.enter_untouched (s : State) (st : StationState) :
    (s.enter st).pending = s.pending
      ∧ (s.enter st).line = s.line
      ∧ (s.enter st).rx = s.rx
      ∧ (s.enter st).table = s.table
      ∧ (s.enter st).notices = s.notices
      ∧ (s.enter st).port = s.port
      ∧ (s.enter st).timebase = s.timebase
      ∧ (s.enter st).lineIn = s.lineIn
      ∧ (s.enter st).freeCount = s.freeCount := by
  unfold State.enter
  simp

@[simp] theorem State.withdrawQueued_untouched (s : State) (reason : CancelReason) (k : RecordIndex) :
    (s.withdrawQueued reason k).pending = s.pending
      ∧ (s.withdrawQueued reason k).line = s.line
      ∧ (s.withdrawQueued reason k).rx = s.rx
      ∧ (s.withdrawQueued reason k).table = s.table
      ∧ (s.withdrawQueued reason k).port = s.port
      ∧ (s.withdrawQueued reason k).timebase = s.timebase
      ∧ (s.withdrawQueued reason k).lineIn = s.lineIn
      ∧ (s.withdrawQueued reason k).freeCount = s.freeCount := by
  have h := State.cancel_untouched (s.mapRecord k fun r => { r with waitTimer := none }) (ofRecord k)
  unfold State.withdrawQueued
  dsimp only
  split
  · split <;> simp_all
  · simp
  · simp

@[simp] theorem State.dropRecord_untouched (s : State) (reason : DropReason) (k : RecordIndex) :
    (s.dropRecord reason k).pending = s.pending
      ∧ (s.dropRecord reason k).line = s.line
      ∧ (s.dropRecord reason k).rx = s.rx
      ∧ (s.dropRecord reason k).table = s.table
      ∧ (s.dropRecord reason k).port = s.port
      ∧ (s.dropRecord reason k).timebase = s.timebase
      ∧ (s.dropRecord reason k).lineIn = s.lineIn
      ∧ (s.dropRecord reason k).freeCount = s.freeCount := by
  unfold State.dropRecord
  simp

@[simp] theorem State.owePresence_untouched (s : State) :
    s.owePresence.pending = s.pending
      ∧ s.owePresence.line = s.line
      ∧ s.owePresence.rx = s.rx
      ∧ s.owePresence.table = s.table
      ∧ s.owePresence.notices = s.notices
      ∧ s.owePresence.port = s.port
      ∧ s.owePresence.timebase = s.timebase
      ∧ s.owePresence.lineIn = s.lineIn
      ∧ s.owePresence.freeCount = s.freeCount := by
  unfold State.owePresence
  split <;> simp

@[simp] theorem State.enterHoldoff_untouched (s : State) :
    s.enterHoldoff.pending = s.pending
      ∧ s.enterHoldoff.line = s.line
      ∧ s.enterHoldoff.tx = s.tx
      ∧ s.enterHoldoff.rx = s.rx
      ∧ s.enterHoldoff.table = s.table
      ∧ s.enterHoldoff.records = s.records
      ∧ s.enterHoldoff.notices = s.notices
      ∧ s.enterHoldoff.port = s.port
      ∧ s.enterHoldoff.timebase = s.timebase
      ∧ s.enterHoldoff.lineIn = s.lineIn
      ∧ s.enterHoldoff.freeCount = s.freeCount := by
  unfold State.enterHoldoff
  simp

@[simp] theorem State.enterOffline_untouched (s : State) :
    s.enterOffline.pending = s.pending
      ∧ s.enterOffline.line = s.line
      ∧ s.enterOffline.tx = s.tx
      ∧ s.enterOffline.rx = s.rx
      ∧ s.enterOffline.table = s.table
      ∧ s.enterOffline.records = s.records
      ∧ s.enterOffline.notices = s.notices
      ∧ s.enterOffline.port = s.port
      ∧ s.enterOffline.timebase = s.timebase
      ∧ s.enterOffline.lineIn = s.lineIn
      ∧ s.enterOffline.freeCount = s.freeCount := by
  unfold State.enterOffline
  simp

@[simp] theorem State.reportDetach_untouched (s : State) (reason : DetachReason) :
    (s.reportDetach reason).pending = s.pending
      ∧ (s.reportDetach reason).line = s.line
      ∧ (s.reportDetach reason).tx = s.tx
      ∧ (s.reportDetach reason).rx = s.rx
      ∧ (s.reportDetach reason).table = s.table
      ∧ (s.reportDetach reason).records = s.records
      ∧ (s.reportDetach reason).port = s.port
      ∧ (s.reportDetach reason).timebase = s.timebase
      ∧ (s.reportDetach reason).lineIn = s.lineIn
      ∧ (s.reportDetach reason).freeCount = s.freeCount := by
  unfold State.reportDetach
  simp

@[simp] theorem State.detach_untouched (s : State) (reason : DetachReason) :
    (s.detach reason).pending = s.pending
      ∧ (s.detach reason).port = s.port
      ∧ (s.detach reason).timebase = s.timebase
      ∧ (s.detach reason).lineIn = s.lineIn
      ∧ (s.detach reason).freeCount = s.freeCount := by
  unfold State.detach
  repeat' split <;> simp

@[simp] theorem State.endAttempt_untouched (s : State) (failed : Bool) :
    (s.endAttempt failed).pending = s.pending
      ∧ (s.endAttempt failed).port = s.port
      ∧ (s.endAttempt failed).timebase = s.timebase
      ∧ (s.endAttempt failed).lineIn = s.lineIn
      ∧ (s.endAttempt failed).freeCount = s.freeCount := by
  unfold State.endAttempt
  (repeat' split) <;> simp

@[simp] theorem State.acceptAttempt_untouched (s : State) :
    s.acceptAttempt.pending = s.pending
      ∧ s.acceptAttempt.line = s.line
      ∧ s.acceptAttempt.rx = s.rx
      ∧ s.acceptAttempt.table = s.table
      ∧ s.acceptAttempt.notices = s.notices
      ∧ s.acceptAttempt.port = s.port
      ∧ s.acceptAttempt.timebase = s.timebase
      ∧ s.acceptAttempt.lineIn = s.lineIn
      ∧ s.acceptAttempt.freeCount = s.freeCount := by
  unfold State.acceptAttempt
  split <;> simp

@[simp] theorem State.restartPresence_untouched (s : State) :
    s.restartPresence.pending = s.pending
      ∧ s.restartPresence.line = s.line
      ∧ s.restartPresence.tx = s.tx
      ∧ s.restartPresence.rx = s.rx
      ∧ s.restartPresence.table = s.table
      ∧ s.restartPresence.records = s.records
      ∧ s.restartPresence.notices = s.notices
      ∧ s.restartPresence.port = s.port
      ∧ s.restartPresence.timebase = s.timebase
      ∧ s.restartPresence.lineIn = s.lineIn
      ∧ s.restartPresence.freeCount = s.freeCount := by
  unfold State.restartPresence
  simp

@[simp] theorem State.enterListening_untouched (s : State) :
    s.enterListening.pending = s.pending
      ∧ s.enterListening.line = s.line
      ∧ s.enterListening.rx = s.rx
      ∧ s.enterListening.table = s.table
      ∧ s.enterListening.notices = s.notices
      ∧ s.enterListening.port = s.port
      ∧ s.enterListening.timebase = s.timebase
      ∧ s.enterListening.lineIn = s.lineIn
      ∧ s.enterListening.freeCount = s.freeCount := by
  unfold State.enterListening
  simp

@[simp] theorem State.enterFounding_untouched (s : State) :
    s.enterFounding.pending = s.pending
      ∧ s.enterFounding.line = s.line
      ∧ s.enterFounding.rx = s.rx
      ∧ s.enterFounding.table = s.table
      ∧ s.enterFounding.notices = s.notices
      ∧ s.enterFounding.port = s.port
      ∧ s.enterFounding.timebase = s.timebase
      ∧ s.enterFounding.lineIn = s.lineIn
      ∧ s.enterFounding.freeCount = s.freeCount := by
  unfold State.enterFounding
  simp

@[simp] theorem State.enterAsking_untouched (s : State) :
    s.enterAsking.pending = s.pending
      ∧ s.enterAsking.line = s.line
      ∧ s.enterAsking.rx = s.rx
      ∧ s.enterAsking.table = s.table
      ∧ s.enterAsking.notices = s.notices
      ∧ s.enterAsking.port = s.port
      ∧ s.enterAsking.timebase = s.timebase
      ∧ s.enterAsking.lineIn = s.lineIn
      ∧ s.enterAsking.freeCount = s.freeCount := by
  unfold State.enterAsking
  simp

@[simp] theorem State.foundGroup_untouched (s : State) (tag : Byte) :
    (s.foundGroup tag).pending = s.pending
      ∧ (s.foundGroup tag).line = s.line
      ∧ (s.foundGroup tag).rx = s.rx
      ∧ (s.foundGroup tag).port = s.port
      ∧ (s.foundGroup tag).timebase = s.timebase
      ∧ (s.foundGroup tag).lineIn = s.lineIn
      ∧ (s.foundGroup tag).freeCount = s.freeCount := by
  unfold State.foundGroup
  simp

@[simp] theorem State.withdrawAnnounce_untouched (s : State) :
    s.withdrawAnnounce.pending = s.pending
      ∧ s.withdrawAnnounce.line = s.line
      ∧ s.withdrawAnnounce.rx = s.rx
      ∧ s.withdrawAnnounce.table = s.table
      ∧ s.withdrawAnnounce.notices = s.notices
      ∧ s.withdrawAnnounce.port = s.port
      ∧ s.withdrawAnnounce.timebase = s.timebase
      ∧ s.withdrawAnnounce.lineIn = s.lineIn
      ∧ s.withdrawAnnounce.freeCount = s.freeCount := by
  unfold State.withdrawAnnounce
  split <;> simp

@[simp] theorem State.withdrawJoinAsk_untouched (s : State) :
    s.withdrawJoinAsk.pending = s.pending
      ∧ s.withdrawJoinAsk.line = s.line
      ∧ s.withdrawJoinAsk.rx = s.rx
      ∧ s.withdrawJoinAsk.table = s.table
      ∧ s.withdrawJoinAsk.notices = s.notices
      ∧ s.withdrawJoinAsk.port = s.port
      ∧ s.withdrawJoinAsk.timebase = s.timebase
      ∧ s.withdrawJoinAsk.lineIn = s.lineIn
      ∧ s.withdrawJoinAsk.freeCount = s.freeCount := by
  unfold State.withdrawJoinAsk
  simp

@[simp] theorem State.groupHeard_untouched (s : State) (kind : FrameKind) (f : Frame) :
    (s.groupHeard kind f).pending = s.pending
      ∧ (s.groupHeard kind f).line = s.line
      ∧ (s.groupHeard kind f).tx = s.tx
      ∧ (s.groupHeard kind f).rx = s.rx
      ∧ (s.groupHeard kind f).table = s.table
      ∧ (s.groupHeard kind f).records = s.records
      ∧ (s.groupHeard kind f).notices = s.notices
      ∧ (s.groupHeard kind f).port = s.port
      ∧ (s.groupHeard kind f).timebase = s.timebase
      ∧ (s.groupHeard kind f).lineIn = s.lineIn
      ∧ (s.groupHeard kind f).freeCount = s.freeCount := by
  unfold State.groupHeard
  simp

@[simp] theorem State.foundingTakes_untouched (s : State) (kind : FrameKind) (sender : Station) (f : Frame) :
    (s.foundingTakes kind sender f).pending = s.pending
      ∧ (s.foundingTakes kind sender f).line = s.line
      ∧ (s.foundingTakes kind sender f).rx = s.rx
      ∧ (s.foundingTakes kind sender f).port = s.port
      ∧ (s.foundingTakes kind sender f).timebase = s.timebase
      ∧ (s.foundingTakes kind sender f).lineIn = s.lineIn
      ∧ (s.foundingTakes kind sender f).freeCount = s.freeCount := by
  unfold State.foundingTakes
  (repeat' split) <;> simp

@[simp] theorem State.oweJoinAsk_untouched (s : State) :
    s.oweJoinAsk.pending = s.pending
      ∧ s.oweJoinAsk.line = s.line
      ∧ s.oweJoinAsk.rx = s.rx
      ∧ s.oweJoinAsk.table = s.table
      ∧ s.oweJoinAsk.notices = s.notices
      ∧ s.oweJoinAsk.port = s.port
      ∧ s.oweJoinAsk.timebase = s.timebase
      ∧ s.oweJoinAsk.lineIn = s.lineIn
      ∧ s.oweJoinAsk.freeCount = s.freeCount := by
  unfold State.oweJoinAsk
  split <;> simp

@[simp] theorem State.admitted_untouched (s : State) (sender : Station) (f : Frame) :
    (s.admitted sender f).pending = s.pending
      ∧ (s.admitted sender f).line = s.line
      ∧ (s.admitted sender f).rx = s.rx
      ∧ (s.admitted sender f).notices = s.notices
      ∧ (s.admitted sender f).port = s.port
      ∧ (s.admitted sender f).timebase = s.timebase
      ∧ (s.admitted sender f).lineIn = s.lineIn
      ∧ (s.admitted sender f).freeCount = s.freeCount := by
  unfold State.admitted
  simp

@[simp] theorem State.askLower_untouched (s : State) (kind : FrameKind) (f : Frame) :
    (s.askLower kind f).pending = s.pending
      ∧ (s.askLower kind f).line = s.line
      ∧ (s.askLower kind f).rx = s.rx
      ∧ (s.askLower kind f).table = s.table
      ∧ (s.askLower kind f).notices = s.notices
      ∧ (s.askLower kind f).port = s.port
      ∧ (s.askLower kind f).timebase = s.timebase
      ∧ (s.askLower kind f).lineIn = s.lineIn
      ∧ (s.askLower kind f).freeCount = s.freeCount := by
  unfold State.askLower
  simp

@[simp] theorem State.askingTakes_untouched (s : State) (kind : FrameKind) (sender : Station) (f : Frame) :
    (s.askingTakes kind sender f).pending = s.pending
      ∧ (s.askingTakes kind sender f).line = s.line
      ∧ (s.askingTakes kind sender f).rx = s.rx
      ∧ (s.askingTakes kind sender f).notices = s.notices
      ∧ (s.askingTakes kind sender f).port = s.port
      ∧ (s.askingTakes kind sender f).timebase = s.timebase
      ∧ (s.askingTakes kind sender f).lineIn = s.lineIn
      ∧ (s.askingTakes kind sender f).freeCount = s.freeCount := by
  unfold State.askingTakes
  (repeat' split) <;> simp

@[simp] theorem State.admitNext_untouched (s : State) :
    s.admitNext.pending = s.pending
      ∧ s.admitNext.line = s.line
      ∧ s.admitNext.rx = s.rx
      ∧ s.admitNext.table = s.table
      ∧ s.admitNext.notices = s.notices
      ∧ s.admitNext.port = s.port
      ∧ s.admitNext.timebase = s.timebase
      ∧ s.admitNext.lineIn = s.lineIn
      ∧ s.admitNext.freeCount = s.freeCount := by
  unfold State.admitNext
  repeat' split <;> simp

@[simp] theorem State.takeJoinAsk_untouched (s : State) (j : Station) :
    (s.takeJoinAsk j).pending = s.pending
      ∧ (s.takeJoinAsk j).line = s.line
      ∧ (s.takeJoinAsk j).rx = s.rx
      ∧ (s.takeJoinAsk j).table = s.table
      ∧ (s.takeJoinAsk j).notices = s.notices
      ∧ (s.takeJoinAsk j).port = s.port
      ∧ (s.takeJoinAsk j).timebase = s.timebase
      ∧ (s.takeJoinAsk j).lineIn = s.lineIn
      ∧ (s.takeJoinAsk j).freeCount = s.freeCount := by
  unfold State.takeJoinAsk
  split <;> simp

@[simp] theorem State.endDonation_untouched (s : State) (j : Station) :
    (s.endDonation j).pending = s.pending
      ∧ (s.endDonation j).line = s.line
      ∧ (s.endDonation j).rx = s.rx
      ∧ (s.endDonation j).table = s.table
      ∧ (s.endDonation j).notices = s.notices
      ∧ (s.endDonation j).port = s.port
      ∧ (s.endDonation j).timebase = s.timebase
      ∧ (s.endDonation j).lineIn = s.lineIn
      ∧ (s.endDonation j).freeCount = s.freeCount := by
  unfold State.endDonation
  simp

@[simp] theorem State.takeAdmitResult_untouched (s : State) (effect : Bool) :
    (s.takeAdmitResult effect).pending = s.pending
      ∧ (s.takeAdmitResult effect).line = s.line
      ∧ (s.takeAdmitResult effect).rx = s.rx
      ∧ (s.takeAdmitResult effect).table = s.table
      ∧ (s.takeAdmitResult effect).notices = s.notices
      ∧ (s.takeAdmitResult effect).port = s.port
      ∧ (s.takeAdmitResult effect).timebase = s.timebase
      ∧ (s.takeAdmitResult effect).lineIn = s.lineIn
      ∧ (s.takeAdmitResult effect).freeCount = s.freeCount := by
  unfold State.takeAdmitResult
  repeat' split <;> simp

@[simp] theorem State.dropPartReport_untouched (s : State) :
    s.dropPartReport.pending = s.pending
      ∧ s.dropPartReport.line = s.line
      ∧ s.dropPartReport.tx = s.tx
      ∧ s.dropPartReport.rx = s.rx
      ∧ s.dropPartReport.table = s.table
      ∧ s.dropPartReport.records = s.records
      ∧ s.dropPartReport.notices = s.notices
      ∧ s.dropPartReport.port = s.port
      ∧ s.dropPartReport.timebase = s.timebase
      ∧ s.dropPartReport.lineIn = s.lineIn
      ∧ s.dropPartReport.freeCount = s.freeCount := by
  unfold State.dropPartReport
  simp

@[simp] theorem State.partAccepted_untouched (s : State) :
    s.partAccepted.pending = s.pending
      ∧ s.partAccepted.line = s.line
      ∧ s.partAccepted.rx = s.rx
      ∧ s.partAccepted.table = s.table
      ∧ s.partAccepted.notices = s.notices
      ∧ s.partAccepted.port = s.port
      ∧ s.partAccepted.timebase = s.timebase
      ∧ s.partAccepted.lineIn = s.lineIn
      ∧ s.partAccepted.freeCount = s.freeCount := by
  unfold State.partAccepted
  split
  · simp
  · repeat' split <;> simp

@[simp] theorem State.nextEvict_untouched (s : State) :
    s.nextEvict.pending = s.pending
      ∧ s.nextEvict.line = s.line
      ∧ s.nextEvict.rx = s.rx
      ∧ s.nextEvict.table = s.table
      ∧ s.nextEvict.notices = s.notices
      ∧ s.nextEvict.port = s.port
      ∧ s.nextEvict.timebase = s.timebase
      ∧ s.nextEvict.lineIn = s.lineIn
      ∧ s.nextEvict.freeCount = s.freeCount := by
  unfold State.nextEvict
  split <;> simp

@[simp] theorem State.resolveEvict_untouched (s : State) :
    s.resolveEvict.pending = s.pending
      ∧ s.resolveEvict.line = s.line
      ∧ s.resolveEvict.rx = s.rx
      ∧ s.resolveEvict.table = s.table
      ∧ s.resolveEvict.notices = s.notices
      ∧ s.resolveEvict.port = s.port
      ∧ s.resolveEvict.timebase = s.timebase
      ∧ s.resolveEvict.lineIn = s.lineIn
      ∧ s.resolveEvict.freeCount = s.freeCount := by
  unfold State.resolveEvict
  simp

@[simp] theorem State.unlist_untouched (s : State) (x : Station) :
    (s.unlist x).pending = s.pending
      ∧ (s.unlist x).line = s.line
      ∧ (s.unlist x).tx = s.tx
      ∧ (s.unlist x).rx = s.rx
      ∧ (s.unlist x).table = s.table
      ∧ (s.unlist x).records = s.records
      ∧ (s.unlist x).notices = s.notices
      ∧ (s.unlist x).port = s.port
      ∧ (s.unlist x).timebase = s.timebase
      ∧ (s.unlist x).lineIn = s.lineIn
      ∧ (s.unlist x).freeCount = s.freeCount := by
  unfold State.unlist
  simp

@[simp] theorem State.withdrawEviction_untouched (s : State) (x : Station) :
    (s.withdrawEviction x).pending = s.pending
      ∧ (s.withdrawEviction x).line = s.line
      ∧ (s.withdrawEviction x).rx = s.rx
      ∧ (s.withdrawEviction x).table = s.table
      ∧ (s.withdrawEviction x).notices = s.notices
      ∧ (s.withdrawEviction x).port = s.port
      ∧ (s.withdrawEviction x).timebase = s.timebase
      ∧ (s.withdrawEviction x).lineIn = s.lineIn
      ∧ (s.withdrawEviction x).freeCount = s.freeCount := by
  have h := State.cancel_untouched s (ofKind .evict)
  unfold State.withdrawEviction
  (repeat' split) <;> simp_all

@[simp] theorem State.silenceReport_untouched (s : State) (x : Station) :
    (s.silenceReport x).pending = s.pending
      ∧ (s.silenceReport x).line = s.line
      ∧ (s.silenceReport x).rx = s.rx
      ∧ (s.silenceReport x).table = s.table
      ∧ (s.silenceReport x).notices = s.notices
      ∧ (s.silenceReport x).port = s.port
      ∧ (s.silenceReport x).timebase = s.timebase
      ∧ (s.silenceReport x).lineIn = s.lineIn
      ∧ (s.silenceReport x).freeCount = s.freeCount := by
  unfold State.silenceReport
  split <;> simp

@[simp] theorem State.startSilence_untouched (s : State) (x : Station) :
    (s.startSilence x).pending = s.pending
      ∧ (s.startSilence x).line = s.line
      ∧ (s.startSilence x).tx = s.tx
      ∧ (s.startSilence x).rx = s.rx
      ∧ (s.startSilence x).table = s.table
      ∧ (s.startSilence x).records = s.records
      ∧ (s.startSilence x).notices = s.notices
      ∧ (s.startSilence x).port = s.port
      ∧ (s.startSilence x).timebase = s.timebase
      ∧ (s.startSilence x).lineIn = s.lineIn
      ∧ (s.startSilence x).freeCount = s.freeCount := by
  unfold State.startSilence
  simp

@[simp] theorem State.postRoster_untouched (s : State) :
    s.postRoster.pending = s.pending
      ∧ s.postRoster.line = s.line
      ∧ s.postRoster.tx = s.tx
      ∧ s.postRoster.rx = s.rx
      ∧ s.postRoster.table = s.table
      ∧ s.postRoster.ctrl = s.ctrl
      ∧ s.postRoster.records = s.records
      ∧ s.postRoster.port = s.port
      ∧ s.postRoster.timebase = s.timebase
      ∧ s.postRoster.lineIn = s.lineIn
      ∧ s.postRoster.freeCount = s.freeCount := by
  unfold State.postRoster
  simp

@[simp] theorem State.memberAdded_untouched (s : State) (x : Station) :
    (s.memberAdded x).pending = s.pending
      ∧ (s.memberAdded x).line = s.line
      ∧ (s.memberAdded x).tx = s.tx
      ∧ (s.memberAdded x).rx = s.rx
      ∧ (s.memberAdded x).table = s.table
      ∧ (s.memberAdded x).records = s.records
      ∧ (s.memberAdded x).port = s.port
      ∧ (s.memberAdded x).timebase = s.timebase
      ∧ (s.memberAdded x).lineIn = s.lineIn
      ∧ (s.memberAdded x).freeCount = s.freeCount := by
  unfold State.memberAdded
  simp

@[simp] theorem State.donationLost_untouched (s : State) (x : Station) :
    (s.donationLost x).pending = s.pending
      ∧ (s.donationLost x).line = s.line
      ∧ (s.donationLost x).rx = s.rx
      ∧ (s.donationLost x).table = s.table
      ∧ (s.donationLost x).notices = s.notices
      ∧ (s.donationLost x).port = s.port
      ∧ (s.donationLost x).timebase = s.timebase
      ∧ (s.donationLost x).lineIn = s.lineIn
      ∧ (s.donationLost x).freeCount = s.freeCount := by
  unfold State.donationLost
  (repeat' split) <;> simp

@[simp] theorem State.memberRemoved_untouched (s : State) (x : Station) :
    (s.memberRemoved x).pending = s.pending
      ∧ (s.memberRemoved x).line = s.line
      ∧ (s.memberRemoved x).rx = s.rx
      ∧ (s.memberRemoved x).table = s.table
      ∧ (s.memberRemoved x).port = s.port
      ∧ (s.memberRemoved x).timebase = s.timebase
      ∧ (s.memberRemoved x).lineIn = s.lineIn
      ∧ (s.memberRemoved x).freeCount = s.freeCount := by
  unfold State.memberRemoved
  simp

@[simp] theorem State.takeInsertion_untouched (s : State) (k : RecordIndex) (granted : Bool) :
    (s.takeInsertion k granted).pending = s.pending
      ∧ (s.takeInsertion k granted).line = s.line
      ∧ (s.takeInsertion k granted).rx = s.rx
      ∧ (s.takeInsertion k granted).table = s.table
      ∧ (s.takeInsertion k granted).port = s.port
      ∧ (s.takeInsertion k granted).timebase = s.timebase
      ∧ (s.takeInsertion k granted).lineIn = s.lineIn
      ∧ (s.takeInsertion k granted).freeCount = s.freeCount := by
  unfold State.takeInsertion
  (repeat' split) <;> simp

@[simp] theorem State.recordReport_untouched (s : State) (k : RecordIndex) (news : ClaimNews) :
    (s.recordReport k news).pending = s.pending
      ∧ (s.recordReport k news).line = s.line
      ∧ (s.recordReport k news).rx = s.rx
      ∧ (s.recordReport k news).table = s.table
      ∧ (s.recordReport k news).port = s.port
      ∧ (s.recordReport k news).timebase = s.timebase
      ∧ (s.recordReport k news).lineIn = s.lineIn
      ∧ (s.recordReport k news).freeCount = s.freeCount := by
  unfold State.recordReport
  split <;> simp

@[simp] theorem State.takeClaimReport_untouched (s : State) (r k : Byte) (news : ClaimNews) :
    (s.takeClaimReport r k news).pending = s.pending
      ∧ (s.takeClaimReport r k news).line = s.line
      ∧ (s.takeClaimReport r k news).rx = s.rx
      ∧ (s.takeClaimReport r k news).table = s.table
      ∧ (s.takeClaimReport r k news).port = s.port
      ∧ (s.takeClaimReport r k news).timebase = s.timebase
      ∧ (s.takeClaimReport r k news).lineIn = s.lineIn
      ∧ (s.takeClaimReport r k news).freeCount = s.freeCount := by
  unfold State.takeClaimReport
  repeat' split <;> simp

@[simp] theorem State.takeTableReport_untouched (s : State) (r : TableReport) :
    (s.takeTableReport r).pending = s.pending
      ∧ (s.takeTableReport r).port = s.port
      ∧ (s.takeTableReport r).timebase = s.timebase
      ∧ (s.takeTableReport r).lineIn = s.lineIn
      ∧ (s.takeTableReport r).freeCount = s.freeCount := by
  cases r <;> unfold State.takeTableReport <;> simp

@[simp] theorem State.takeTableReports_untouched (s : State) (rs : List TableReport) :
    (rs.foldl State.takeTableReport s).pending = s.pending
      ∧ (rs.foldl State.takeTableReport s).port = s.port
      ∧ (rs.foldl State.takeTableReport s).timebase = s.timebase
      ∧ (rs.foldl State.takeTableReport s).lineIn = s.lineIn
      ∧ (rs.foldl State.takeTableReport s).freeCount = s.freeCount := by
  induction rs generalizing s with
  | nil => exact ⟨rfl, rfl, rfl, rfl, rfl⟩
  | cons x xs ih => simp [ih]

@[simp] theorem State.applyFrame_untouched (s : State) (f : Frame) :
    (s.applyFrame f).pending = s.pending
      ∧ (s.applyFrame f).port = s.port
      ∧ (s.applyFrame f).timebase = s.timebase
      ∧ (s.applyFrame f).lineIn = s.lineIn
      ∧ (s.applyFrame f).freeCount = s.freeCount := by
  unfold State.applyFrame
  split <;> simp

@[simp] theorem State.catchupFailure_untouched (s : State) :
    s.catchupFailure.pending = s.pending
      ∧ s.catchupFailure.line = s.line
      ∧ s.catchupFailure.rx = s.rx
      ∧ s.catchupFailure.table = s.table
      ∧ s.catchupFailure.notices = s.notices
      ∧ s.catchupFailure.port = s.port
      ∧ s.catchupFailure.timebase = s.timebase
      ∧ s.catchupFailure.lineIn = s.lineIn
      ∧ s.catchupFailure.freeCount = s.freeCount := by
  unfold State.catchupFailure
  split <;> simp

@[simp] theorem State.endFailedCatchup_untouched (s : State) :
    s.endFailedCatchup.pending = s.pending
      ∧ s.endFailedCatchup.port = s.port
      ∧ s.endFailedCatchup.timebase = s.timebase
      ∧ s.endFailedCatchup.lineIn = s.lineIn
      ∧ s.endFailedCatchup.freeCount = s.freeCount := by
  unfold State.endFailedCatchup
  simp

@[simp] theorem State.caughtUp_untouched (s : State) :
    s.caughtUp.pending = s.pending
      ∧ s.caughtUp.line = s.line
      ∧ s.caughtUp.rx = s.rx
      ∧ s.caughtUp.table = s.table
      ∧ s.caughtUp.port = s.port
      ∧ s.caughtUp.timebase = s.timebase
      ∧ s.caughtUp.lineIn = s.lineIn
      ∧ s.caughtUp.freeCount = s.freeCount := by
  unfold State.caughtUp
  dsimp only; split <;> simp

@[simp] theorem State.placePending_untouched (s : State) (kind : FrameKind) (sender : Station) (f : Frame) :
    (s.placePending kind sender f).pending = s.pending
      ∧ (s.placePending kind sender f).port = s.port
      ∧ (s.placePending kind sender f).timebase = s.timebase
      ∧ (s.placePending kind sender f).lineIn = s.lineIn
      ∧ (s.placePending kind sender f).freeCount = s.freeCount := by
  unfold State.placePending
  (repeat' split) <;> simp

@[simp] theorem State.startSilences_untouched (s : State) (xs : List Station) :
    (xs.foldl State.startSilence s).pending = s.pending
      ∧ (xs.foldl State.startSilence s).line = s.line
      ∧ (xs.foldl State.startSilence s).tx = s.tx
      ∧ (xs.foldl State.startSilence s).rx = s.rx
      ∧ (xs.foldl State.startSilence s).table = s.table
      ∧ (xs.foldl State.startSilence s).records = s.records
      ∧ (xs.foldl State.startSilence s).notices = s.notices
      ∧ (xs.foldl State.startSilence s).port = s.port
      ∧ (xs.foldl State.startSilence s).timebase = s.timebase
      ∧ (xs.foldl State.startSilence s).lineIn = s.lineIn
      ∧ (xs.foldl State.startSilence s).freeCount = s.freeCount := by
  induction xs generalizing s with
  | nil => exact ⟨rfl, rfl, rfl, rfl, rfl, rfl, rfl, rfl, rfl, rfl, rfl⟩
  | cons x xs ih => simp [ih]

@[simp] theorem State.install_untouched (s : State) (tseq : Tseq) :
    (s.install tseq).pending = s.pending
      ∧ (s.install tseq).line = s.line
      ∧ (s.install tseq).rx = s.rx
      ∧ (s.install tseq).port = s.port
      ∧ (s.install tseq).timebase = s.timebase
      ∧ (s.install tseq).lineIn = s.lineIn
      ∧ (s.install tseq).freeCount = s.freeCount := by
  unfold State.install
  dsimp only; (repeat' split) <;> simp

@[simp] theorem State.takePart_untouched (s : State) (sender : Station) (f : Frame) :
    (s.takePart sender f).pending = s.pending
      ∧ (s.takePart sender f).line = s.line
      ∧ (s.takePart sender f).rx = s.rx
      ∧ (s.takePart sender f).port = s.port
      ∧ (s.takePart sender f).timebase = s.timebase
      ∧ (s.takePart sender f).lineIn = s.lineIn
      ∧ (s.takePart sender f).freeCount = s.freeCount := by
  unfold State.takePart
  (repeat' split) <;> simp

@[simp] theorem State.replayFrame_untouched (s : State) (f : Frame) :
    (s.replayFrame f).pending = s.pending
      ∧ (s.replayFrame f).port = s.port
      ∧ (s.replayFrame f).timebase = s.timebase
      ∧ (s.replayFrame f).lineIn = s.lineIn
      ∧ (s.replayFrame f).freeCount = s.freeCount := by
  unfold State.replayFrame
  (repeat' split) <;> simp

@[simp] theorem State.replayEnd_untouched (s : State) :
    s.replayEnd.pending = s.pending
      ∧ s.replayEnd.line = s.line
      ∧ s.replayEnd.rx = s.rx
      ∧ s.replayEnd.table = s.table
      ∧ s.replayEnd.port = s.port
      ∧ s.replayEnd.timebase = s.timebase
      ∧ s.replayEnd.lineIn = s.lineIn
      ∧ s.replayEnd.freeCount = s.freeCount := by
  unfold State.replayEnd
  split <;> simp

@[simp] theorem State.takeResult_untouched (s : State) (clean : Bool) :
    (s.takeResult clean).pending = s.pending
      ∧ (s.takeResult clean).port = s.port
      ∧ (s.takeResult clean).timebase = s.timebase
      ∧ (s.takeResult clean).lineIn = s.lineIn
      ∧ (s.takeResult clean).freeCount = s.freeCount := by
  unfold State.takeResult
  split <;> simp

@[simp] theorem State.takeItem_untouched (s : State) (x : StreamItem) :
    (s.takeItem x).pending = s.pending
      ∧ (s.takeItem x).port = s.port
      ∧ (s.takeItem x).timebase = s.timebase
      ∧ (s.takeItem x).lineIn = s.lineIn
      ∧ (s.takeItem x).freeCount = s.freeCount := by
  cases x <;> unfold State.takeItem <;> simp

@[simp] theorem State.takeItems_untouched (s : State) (xs : List StreamItem) :
    (xs.foldl State.takeItem s).pending = s.pending
      ∧ (xs.foldl State.takeItem s).port = s.port
      ∧ (xs.foldl State.takeItem s).timebase = s.timebase
      ∧ (xs.foldl State.takeItem s).lineIn = s.lineIn
      ∧ (xs.foldl State.takeItem s).freeCount = s.freeCount := by
  induction xs generalizing s with
  | nil => exact ⟨rfl, rfl, rfl, rfl, rfl⟩
  | cons x xs ih => simp [ih]

@[simp] theorem State.countVeto_untouched (s : State) (decision : Option VetoKind) :
    (s.countVeto decision).pending = s.pending
      ∧ (s.countVeto decision).port = s.port
      ∧ (s.countVeto decision).timebase = s.timebase
      ∧ (s.countVeto decision).lineIn = s.lineIn
      ∧ (s.countVeto decision).freeCount = s.freeCount := by
  unfold State.countVeto
  repeat' split <;> simp

@[simp] theorem State.answerOpening_untouched (s : State) (a : Assembly) :
    (s.answerOpening a).pending = s.pending
      ∧ (s.answerOpening a).port = s.port
      ∧ (s.answerOpening a).timebase = s.timebase
      ∧ (s.answerOpening a).lineIn = s.lineIn := by
  unfold State.answerOpening
  simp

@[simp] theorem State.takeUpToOpening_untouched (s : State) :
    s.takeUpToOpening.pending = s.pending
      ∧ s.takeUpToOpening.port = s.port
      ∧ s.takeUpToOpening.timebase = s.timebase
      ∧ s.takeUpToOpening.lineIn = s.lineIn
      ∧ s.takeUpToOpening.freeCount = s.freeCount := by
  unfold State.takeUpToOpening
  simp

@[simp] theorem State.openingEffect_untouched (s : State) :
    s.openingEffect.pending = s.pending
      ∧ s.openingEffect.port = s.port
      ∧ s.openingEffect.timebase = s.timebase
      ∧ s.openingEffect.lineIn = s.lineIn := by
  unfold State.openingEffect
  dsimp only; split <;> simp

@[simp] theorem State.toRecipient_untouched (s : State) (kind : FrameKind) (sender : Station) (f : Frame) :
    (s.toRecipient kind sender f).pending = s.pending
      ∧ (s.toRecipient kind sender f).port = s.port
      ∧ (s.toRecipient kind sender f).timebase = s.timebase
      ∧ (s.toRecipient kind sender f).lineIn = s.lineIn
      ∧ (s.toRecipient kind sender f).freeCount = s.freeCount := by
  cases kind <;> unfold State.toRecipient <;> (repeat' split) <;> simp

@[simp] theorem State.checked_untouched (s : State) (kind : FrameKind) (sender : Station) (f : Frame) :
    (s.checked kind sender f).pending = s.pending
      ∧ (s.checked kind sender f).port = s.port
      ∧ (s.checked kind sender f).timebase = s.timebase
      ∧ (s.checked kind sender f).lineIn = s.lineIn
      ∧ (s.checked kind sender f).freeCount = s.freeCount := by
  unfold State.checked
  dsimp only; (repeat' split) <;> simp

@[simp] theorem State.handOn_untouched (s : State) (f : Frame) :
    (s.handOn f).pending = s.pending
      ∧ (s.handOn f).port = s.port
      ∧ (s.handOn f).timebase = s.timebase
      ∧ (s.handOn f).lineIn = s.lineIn
      ∧ (s.handOn f).freeCount = s.freeCount := by
  unfold State.handOn
  (repeat' split) <;> simp

@[simp] theorem State.handoffEffect_untouched (s : State) :
    s.handoffEffect.pending = s.pending
      ∧ s.handoffEffect.port = s.port
      ∧ s.handoffEffect.timebase = s.timebase
      ∧ s.handoffEffect.lineIn = s.lineIn
      ∧ s.handoffEffect.freeCount = s.freeCount := by
  unfold State.handoffEffect
  split <;> simp

@[simp] theorem State.applicationEffect_untouched (s : State) :
    s.applicationEffect.pending = s.pending
      ∧ s.applicationEffect.port = s.port
      ∧ s.applicationEffect.timebase = s.timebase
      ∧ s.applicationEffect.lineIn = s.lineIn
      ∧ s.applicationEffect.freeCount = s.freeCount := by
  unfold State.applicationEffect
  split <;> simp

@[simp] theorem State.takeHead_untouched (s : State) :
    s.takeHead.pending = s.pending
      ∧ s.takeHead.port = s.port
      ∧ s.takeHead.timebase = s.timebase
      ∧ s.takeHead.lineIn = s.lineIn
      ∧ s.takeHead.freeCount = s.freeCount := by
  unfold State.takeHead
  split <;> simp

@[simp] theorem State.controllerAccepted_untouched (s : State) (kind : FrameKind) :
    (s.controllerAccepted kind).pending = s.pending
      ∧ (s.controllerAccepted kind).port = s.port
      ∧ (s.controllerAccepted kind).timebase = s.timebase
      ∧ (s.controllerAccepted kind).lineIn = s.lineIn
      ∧ (s.controllerAccepted kind).freeCount = s.freeCount := by
  cases kind <;> unfold State.controllerAccepted <;> (repeat' split) <;> simp

@[simp] theorem State.presenceHeard_untouched (s : State) :
    s.presenceHeard.pending = s.pending
      ∧ s.presenceHeard.line = s.line
      ∧ s.presenceHeard.tx = s.tx
      ∧ s.presenceHeard.rx = s.rx
      ∧ s.presenceHeard.table = s.table
      ∧ s.presenceHeard.records = s.records
      ∧ s.presenceHeard.notices = s.notices
      ∧ s.presenceHeard.port = s.port
      ∧ s.presenceHeard.timebase = s.timebase
      ∧ s.presenceHeard.lineIn = s.lineIn
      ∧ s.presenceHeard.freeCount = s.freeCount := by
  unfold State.presenceHeard
  split <;> simp

@[simp] theorem State.takeAccepted_untouched (s : State) (kind : FrameKind) (owner : FrameOwner) :
    (s.takeAccepted kind owner).pending = s.pending
      ∧ (s.takeAccepted kind owner).port = s.port
      ∧ (s.takeAccepted kind owner).timebase = s.timebase
      ∧ (s.takeAccepted kind owner).lineIn = s.lineIn
      ∧ (s.takeAccepted kind owner).freeCount = s.freeCount := by
  cases owner <;> unfold State.takeAccepted <;> simp

@[simp] theorem State.takeWithdrawn_untouched (s : State) (kind : FrameKind) (owner : FrameOwner) :
    (s.takeWithdrawn kind owner).pending = s.pending
      ∧ (s.takeWithdrawn kind owner).line = s.line
      ∧ (s.takeWithdrawn kind owner).rx = s.rx
      ∧ (s.takeWithdrawn kind owner).table = s.table
      ∧ (s.takeWithdrawn kind owner).port = s.port
      ∧ (s.takeWithdrawn kind owner).timebase = s.timebase
      ∧ (s.takeWithdrawn kind owner).lineIn = s.lineIn
      ∧ (s.takeWithdrawn kind owner).freeCount = s.freeCount := by
  unfold State.takeWithdrawn
  cases owner with
  | claimUnit k => dsimp only; split <;> simp
  | controller => dsimp only; (repeat' split) <;> simp

@[simp] theorem State.takeReport_untouched (s : State) (report : TxReport) :
    (s.takeReport report).pending = s.pending
      ∧ (s.takeReport report).port = s.port
      ∧ (s.takeReport report).timebase = s.timebase
      ∧ (s.takeReport report).lineIn = s.lineIn
      ∧ (s.takeReport report).freeCount = s.freeCount := by
  cases report <;> simp [State.takeReport]

@[simp] theorem State.takeReportsOn_untouched (s : State) (k : RecordIndex) :
    (s.takeReportsOn k).pending = s.pending
      ∧ (s.takeReportsOn k).port = s.port
      ∧ (s.takeReportsOn k).timebase = s.timebase
      ∧ (s.takeReportsOn k).lineIn = s.lineIn
      ∧ (s.takeReportsOn k).freeCount = s.freeCount := by
  unfold State.takeReportsOn
  have fold : ∀ (reports : List TxReport) (t : State),
      (reports.foldl State.takeReport t).pending = t.pending
        ∧ (reports.foldl State.takeReport t).port = t.port
        ∧ (reports.foldl State.takeReport t).timebase = t.timebase
        ∧ (reports.foldl State.takeReport t).lineIn = t.lineIn
        ∧ (reports.foldl State.takeReport t).freeCount = t.freeCount := by
    intro reports
    induction reports with
    | nil => simp
    | cons r rest ih => intro t; simp [ih]
  obtain ⟨h1, h2, h3, h4, h5⟩ := fold
    (s.tx.reports.filter fun r => decide (r.owner = .claimUnit k))
    (s.mapTx fun t =>
      { t with reports := t.reports.filter fun r => decide (r.owner ≠ .claimUnit k) })
  exact ⟨h1, h2, h3, h4, h5⟩

@[simp] theorem State.reportEffect_untouched (s : State) (path : ReportPath) :
    (s.reportEffect path).pending = s.pending
      ∧ (s.reportEffect path).port = s.port
      ∧ (s.reportEffect path).timebase = s.timebase
      ∧ (s.reportEffect path).lineIn = s.lineIn
      ∧ (s.reportEffect path).freeCount = s.freeCount := by
  unfold State.reportEffect
  split <;> simp

@[simp] theorem State.replayEffect_untouched (s : State) :
    s.replayEffect.pending = s.pending
      ∧ s.replayEffect.port = s.port
      ∧ s.replayEffect.timebase = s.timebase
      ∧ s.replayEffect.lineIn = s.lineIn
      ∧ s.replayEffect.freeCount = s.freeCount := by
  unfold State.replayEffect
  split <;> simp

@[simp] theorem State.listenEffect_untouched (s : State) :
    s.listenEffect.pending = s.pending
      ∧ s.listenEffect.line = s.line
      ∧ s.listenEffect.rx = s.rx
      ∧ s.listenEffect.table = s.table
      ∧ s.listenEffect.notices = s.notices
      ∧ s.listenEffect.port = s.port
      ∧ s.listenEffect.timebase = s.timebase
      ∧ s.listenEffect.lineIn = s.lineIn
      ∧ s.listenEffect.freeCount = s.freeCount := by
  unfold State.listenEffect
  (repeat' split) <;> (try dsimp only) <;> (repeat' split) <;> simp

@[simp] theorem State.askFailed_untouched (s : State) :
    s.askFailed.pending = s.pending
      ∧ s.askFailed.table = s.table
      ∧ s.askFailed.records = s.records
      ∧ s.askFailed.port = s.port
      ∧ s.askFailed.timebase = s.timebase
      ∧ s.askFailed.lineIn = s.lineIn
      ∧ s.askFailed.freeCount = s.freeCount := by
  unfold State.askFailed
  simp

@[simp] theorem State.askEffect_untouched (s : State) :
    s.askEffect.pending = s.pending
      ∧ s.askEffect.table = s.table
      ∧ s.askEffect.port = s.port
      ∧ s.askEffect.timebase = s.timebase
      ∧ s.askEffect.lineIn = s.lineIn
      ∧ s.askEffect.freeCount = s.freeCount := by
  unfold State.askEffect
  split <;> simp

@[simp] theorem State.stallEffect_untouched (s : State) :
    s.stallEffect.pending = s.pending
      ∧ s.stallEffect.port = s.port
      ∧ s.stallEffect.timebase = s.timebase
      ∧ s.stallEffect.lineIn = s.lineIn
      ∧ s.stallEffect.freeCount = s.freeCount := by
  unfold State.stallEffect
  split <;> simp

@[simp] theorem State.presenceEffect_untouched (s : State) :
    s.presenceEffect.pending = s.pending
      ∧ s.presenceEffect.line = s.line
      ∧ s.presenceEffect.rx = s.rx
      ∧ s.presenceEffect.table = s.table
      ∧ s.presenceEffect.notices = s.notices
      ∧ s.presenceEffect.port = s.port
      ∧ s.presenceEffect.timebase = s.timebase
      ∧ s.presenceEffect.lineIn = s.lineIn
      ∧ s.presenceEffect.freeCount = s.freeCount := by
  unfold State.presenceEffect
  simp

@[simp] theorem State.silenceEffect_untouched (s : State) (x : Station) :
    (s.silenceEffect x).pending = s.pending
      ∧ (s.silenceEffect x).line = s.line
      ∧ (s.silenceEffect x).rx = s.rx
      ∧ (s.silenceEffect x).table = s.table
      ∧ (s.silenceEffect x).notices = s.notices
      ∧ (s.silenceEffect x).port = s.port
      ∧ (s.silenceEffect x).timebase = s.timebase
      ∧ (s.silenceEffect x).lineIn = s.lineIn
      ∧ (s.silenceEffect x).freeCount = s.freeCount := by
  unfold State.silenceEffect
  (repeat' split) <;> (try dsimp only) <;> (repeat' split) <;> simp

@[simp] theorem State.holdoffEffect_untouched (s : State) :
    s.holdoffEffect.pending = s.pending
      ∧ s.holdoffEffect.line = s.line
      ∧ s.holdoffEffect.rx = s.rx
      ∧ s.holdoffEffect.table = s.table
      ∧ s.holdoffEffect.notices = s.notices
      ∧ s.holdoffEffect.port = s.port
      ∧ s.holdoffEffect.timebase = s.timebase
      ∧ s.holdoffEffect.lineIn = s.lineIn
      ∧ s.holdoffEffect.freeCount = s.freeCount := by
  unfold State.holdoffEffect
  simp

@[simp] theorem State.waitEffect_untouched (s : State) (k : RecordIndex) :
    (s.waitEffect k).pending = s.pending
      ∧ (s.waitEffect k).line = s.line
      ∧ (s.waitEffect k).rx = s.rx
      ∧ (s.waitEffect k).table = s.table
      ∧ (s.waitEffect k).port = s.port
      ∧ (s.waitEffect k).timebase = s.timebase
      ∧ (s.waitEffect k).lineIn = s.lineIn
      ∧ (s.waitEffect k).freeCount = s.freeCount := by
  unfold State.waitEffect
  split <;> simp

@[simp] theorem State.beginAttempt_untouched (s : State) (taken : Bool) :
    (s.beginAttempt taken).pending = s.pending
      ∧ (s.beginAttempt taken).rx = s.rx
      ∧ (s.beginAttempt taken).table = s.table
      ∧ (s.beginAttempt taken).ctrl = s.ctrl
      ∧ (s.beginAttempt taken).records = s.records
      ∧ (s.beginAttempt taken).notices = s.notices
      ∧ (s.beginAttempt taken).port = s.port
      ∧ (s.beginAttempt taken).timebase = s.timebase
      ∧ (s.beginAttempt taken).lineIn = s.lineIn
      ∧ (s.beginAttempt taken).freeCount = s.freeCount := by
  unfold State.beginAttempt
  split <;> simp

@[simp] theorem State.startEdgeEffect_untouched (s : State) :
    s.startEdgeEffect.pending = s.pending
      ∧ s.startEdgeEffect.rx = s.rx
      ∧ s.startEdgeEffect.table = s.table
      ∧ s.startEdgeEffect.ctrl = s.ctrl
      ∧ s.startEdgeEffect.records = s.records
      ∧ s.startEdgeEffect.notices = s.notices
      ∧ s.startEdgeEffect.port = s.port
      ∧ s.startEdgeEffect.timebase = s.timebase
      ∧ s.startEdgeEffect.lineIn = s.lineIn
      ∧ s.startEdgeEffect.freeCount = s.freeCount := by
  unfold State.startEdgeEffect
  (repeat' split) <;> (try dsimp only) <;> (repeat' split) <;> simp

@[simp] theorem State.lossEffect_untouched (s : State) :
    s.lossEffect.pending = s.pending
      ∧ s.lossEffect.port = s.port
      ∧ s.lossEffect.timebase = s.timebase
      ∧ s.lossEffect.lineIn = s.lineIn
      ∧ s.lossEffect.freeCount = s.freeCount := by
  unfold State.lossEffect
  simp

@[simp] theorem State.mismatchEffect_untouched (s : State) :
    s.mismatchEffect.pending = s.pending
      ∧ s.mismatchEffect.port = s.port
      ∧ s.mismatchEffect.timebase = s.timebase
      ∧ s.mismatchEffect.lineIn = s.lineIn
      ∧ s.mismatchEffect.freeCount = s.freeCount := by
  unfold State.mismatchEffect
  simp

@[simp] theorem State.breakEffect_untouched (s : State) :
    s.breakEffect.pending = s.pending
      ∧ s.breakEffect.port = s.port
      ∧ s.breakEffect.timebase = s.timebase
      ∧ s.breakEffect.lineIn = s.lineIn
      ∧ s.breakEffect.freeCount = s.freeCount := by
  unfold State.breakEffect
  split <;> simp

@[simp] theorem State.breakEndEffect_untouched (s : State) :
    s.breakEndEffect.pending = s.pending
      ∧ s.breakEndEffect.tx = s.tx
      ∧ s.breakEndEffect.rx = s.rx
      ∧ s.breakEndEffect.table = s.table
      ∧ s.breakEndEffect.ctrl = s.ctrl
      ∧ s.breakEndEffect.records = s.records
      ∧ s.breakEndEffect.notices = s.notices
      ∧ s.breakEndEffect.port = s.port
      ∧ s.breakEndEffect.timebase = s.timebase
      ∧ s.breakEndEffect.lineIn = s.lineIn
      ∧ s.breakEndEffect.freeCount = s.freeCount := by
  unfold State.breakEndEffect
  simp

@[simp] theorem State.lineFaultEffect_untouched (s : State) :
    s.lineFaultEffect.pending = s.pending
      ∧ s.lineFaultEffect.tx = s.tx
      ∧ s.lineFaultEffect.rx = s.rx
      ∧ s.lineFaultEffect.table = s.table
      ∧ s.lineFaultEffect.records = s.records
      ∧ s.lineFaultEffect.port = s.port
      ∧ s.lineFaultEffect.timebase = s.timebase
      ∧ s.lineFaultEffect.lineIn = s.lineIn
      ∧ s.lineFaultEffect.freeCount = s.freeCount := by
  unfold State.lineFaultEffect
  simp

@[simp] theorem State.lineRecoveryEffect_untouched (s : State) :
    s.lineRecoveryEffect.pending = s.pending
      ∧ s.lineRecoveryEffect.port = s.port
      ∧ s.lineRecoveryEffect.timebase = s.timebase
      ∧ s.lineRecoveryEffect.lineIn = s.lineIn
      ∧ s.lineRecoveryEffect.freeCount = s.freeCount := by
  unfold State.lineRecoveryEffect
  (repeat' split) <;> (try dsimp only) <;> (repeat' split) <;> simp

@[simp] theorem State.charEffect_untouched (s : State) :
    s.charEffect.pending = s.pending
      ∧ s.charEffect.tx = s.tx
      ∧ s.charEffect.rx = s.rx
      ∧ s.charEffect.table = s.table
      ∧ s.charEffect.ctrl = s.ctrl
      ∧ s.charEffect.records = s.records
      ∧ s.charEffect.notices = s.notices
      ∧ s.charEffect.port = s.port
      ∧ s.charEffect.timebase = s.timebase
      ∧ s.charEffect.lineIn = s.lineIn
      ∧ s.charEffect.freeCount = s.freeCount := by
  unfold State.charEffect
  split <;> simp

@[simp] theorem State.windowCloseEffect_untouched (s : State) :
    s.windowCloseEffect.pending = s.pending
      ∧ s.windowCloseEffect.port = s.port
      ∧ s.windowCloseEffect.timebase = s.timebase
      ∧ s.windowCloseEffect.lineIn = s.lineIn
      ∧ s.windowCloseEffect.freeCount = s.freeCount := by
  unfold State.windowCloseEffect
  (repeat' split) <;> (try dsimp only) <;> (repeat' split) <;> simp

@[simp] theorem State.withdrawOnLeaving_untouched (s : State) (k : RecordIndex) :
    (s.withdrawOnLeaving k).pending = s.pending
      ∧ (s.withdrawOnLeaving k).line = s.line
      ∧ (s.withdrawOnLeaving k).rx = s.rx
      ∧ (s.withdrawOnLeaving k).table = s.table
      ∧ (s.withdrawOnLeaving k).port = s.port
      ∧ (s.withdrawOnLeaving k).timebase = s.timebase
      ∧ (s.withdrawOnLeaving k).lineIn = s.lineIn
      ∧ (s.withdrawOnLeaving k).freeCount = s.freeCount := by
  unfold State.withdrawOnLeaving
  split <;> simp

@[simp] theorem State.withdrawAllOnLeaving_untouched (s : State) (ks : List RecordIndex) :
    (ks.foldl State.withdrawOnLeaving s).pending = s.pending
      ∧ (ks.foldl State.withdrawOnLeaving s).line = s.line
      ∧ (ks.foldl State.withdrawOnLeaving s).rx = s.rx
      ∧ (ks.foldl State.withdrawOnLeaving s).table = s.table
      ∧ (ks.foldl State.withdrawOnLeaving s).port = s.port
      ∧ (ks.foldl State.withdrawOnLeaving s).timebase = s.timebase
      ∧ (ks.foldl State.withdrawOnLeaving s).lineIn = s.lineIn
      ∧ (ks.foldl State.withdrawOnLeaving s).freeCount = s.freeCount := by
  induction ks generalizing s with
  | nil => exact ⟨rfl, rfl, rfl, rfl, rfl, rfl, rfl, rfl⟩
  | cons x xs ih => simp [ih]

@[simp] theorem State.startLeaving_untouched (s : State) :
    s.startLeaving.pending = s.pending
      ∧ s.startLeaving.line = s.line
      ∧ s.startLeaving.rx = s.rx
      ∧ s.startLeaving.table = s.table
      ∧ s.startLeaving.port = s.port
      ∧ s.startLeaving.timebase = s.timebase
      ∧ s.startLeaving.lineIn = s.lineIn
      ∧ s.startLeaving.freeCount = s.freeCount := by
  unfold State.startLeaving
  simp

end Sys2Proof.Machine
end

