-- ==== Sys2Proof/Tests/Slice0.lean ====
section
/-! SUPPORT. Tests: the well-formedness check refuses ill-formed commands, the manual's worked examples
come out as it prints them, and for every statement with hypotheses a concrete state and operands meet
them together, clause by clause at the ends of their ranges. -/

namespace Sys2Proof.Tests

open Sys2Proof.Machine

/-! ## Well-formedness -/

theorem test_ill_formed_unknown_command_10 : (Instr.unknownCommand 0x10).wellFormed = false := by
  decide

theorem test_ill_formed_unknown_command_4F : (Instr.unknownCommand 0x4F).wellFormed = false := by
  decide

theorem test_well_formed_unknown_command :
    (Instr.unknownCommand 0x14).wellFormed = true ∧ (Instr.unknownCommand 0xFF).wellFormed = true := by
  decide

/-! ## Small states -/

/-- The machine after reset, in a station state. -/
def inState (st : StationState) : State :=
  { State.reset with ctrl := { Controller.reset with station := st } }

/-- A PRESENT replica with tag 154 and TSEQ 500, the own station 0 second of three. -/
def replica : Replica :=
  { Replica.absent with condition := .present, tag := 154, roster := [3, 0, 6], tseq := 500 }

/-- A station of that group, with its silence timers. -/
def inGroup (st : StationState) : State :=
  { inState st with
    table := replica,
    ctrl := { Controller.reset with
      station := st,
      silence := (Vector.replicate 32 none).set 3 (some (.running 7)) |>.set 6 (some (.running 0)) } }

def onLine (f : LineIf → LineIf) (s : State) : State := s.mapLine f

def queueOf (q : List TxEntry) (s : State) : State := { s with tx := { s.tx with queue := q } }

def inFlight (e : TxEntry) : TxEntry := { e with state := .active, lastActive := true }

def withRecord (k : RecordIndex) (state : RecordState) (mark : FrameMark) (s : State) : State :=
  s.mapRecord k fun _ => { ClaimRecord.freed mark with state := state }

def withInbox (f : Frame) (flag : Bool) (s : State) : State :=
  { s with rx := { s.rx with inbox := [{ frame := f, accepted := true, ownVeto := flag }] } }

def withStream (xs : List StreamItem) (s : State) : State :=
  s.mapLine fun l => { l with stream := xs }

/-- A frame from a station of the group. -/
def frameOf (kind : FrameKind) (sender : Station) (tag : Byte) (tseq : Tseq) (body : List Byte) :
    Frame :=
  { kind := kind.char, sender := byteOf sender.val, tag := tag, tseq := tseq, body := body }

/-- A full queue of CLAIM frames of the records 0 to n - 1. -/
def claims (n : Nat) : List TxEntry :=
  (allRecords.take n).map fun k => .fresh .claim (.claimUnit k) []

def noticesOf (q : List Notice) : State :=
  { State.reset with notices := { list := q, attn := !q.isEmpty } }

/-- A notice of the slot 7 at the change count 255. -/
def fullNotice (saturated : Bool) : Notice :=
  { subject := .slot 7, count := 255, detail := 31, saturated := saturated }

/-! ## Worked examples of the manual -/

/-- R42, one data bit at a time from the register of ones: a one leaves no feedback, a zero does. -/
theorem test_check_bits :
    frameCheck [] = 0xFFFF ∧ checkBit 0xFFFF true = 0xFFFE ∧ checkBit 0xFFFF false = 0xEFDF := by
  decide

/-- Section 1.5.1: resource 12 has a shared limit of 2, and TSEQ is 40. -/
def example151 : Replica :=
  { Replica.absent with condition := .present, limits := Replica.absent.limits.set 12 2,
                        roster := [3, 7, 9, 14], tseq := 40 }

def applied (fs : List Frame) : Replica × List TableReport :=
  fs.foldl (fun x f => x.1.apply 14 f) (example151, [])

/-- The eight applications of section 1.5.1. -/
def frames151 : List Frame :=
  [frameOf .claim 3 0 40 [12, 0, 0], frameOf .claim 7 0 41 [12, 2, 0], frameOf .claim 9 0 42 [12, 5, 1],
    frameOf .claim 14 0 43 [12, 1, 0], frameOf .claim 7 0 44 [12, 3, 2], frameOf .drop 3 0 45 [12, 0],
    frameOf .drop 7 0 46 [12, 2], frameOf .evict 3 0 47 [9]]

/-- After the fifth line: 3/0 S G, 7/2 S G, 9/5 X W, 14/1 S W. -/
theorem test_example_151_waiting :
    (applied (frames151.take 5)).1.queues[(12 : Resource)] =
      [⟨3, 0, .shared, true⟩, ⟨7, 2, .shared, true⟩, ⟨9, 5, .exclusive, false⟩,
        ⟨14, 1, .shared, false⟩] := by
  decide +kernel

/-- After the last line: 14/1 S G, promoted; TSEQ is 48, and station 9 is no member. -/
theorem test_example_151_promoted :
    (applied frames151).1.queues[(12 : Resource)] = [⟨14, 1, .shared, true⟩]
      ∧ (applied frames151).1.tseq = 48 ∧ (applied frames151).1.roster = [3, 7, 14]
      ∧ (applied frames151).2 = [.memberRemoved 9 .evicted, .claim 12 1 .promoted] := by
  decide +kernel

/-- R28: station 19 founding with the counter at 2 carries the tag 154. -/
theorem test_founding_tag :
    (State.enterFounding { (inState .listening).mapCtrl (fun c => { c with founding := 2 }) with
      port := .reset 19 false false }).ctrl.askedTag = 154 := by
  decide +kernel

/-- Section 5.8: the mismatch veto of station 14 on the CLAIM of the junior 27 with TSEQ 301. -/
theorem test_example_58_mismatch :
    (let s : State := { inState .member with
        port := .reset 14 false false,
        table := { replica with roster := [3, 14, 6, 9, 27], tseq := 302 } };
      s.mismatchCause (frameOf .claim 27 154 301 [1, 0, 0]) = true
        ∧ s.mismatchCause (frameOf .claim 27 154 302 [1, 0, 0]) = false
        ∧ s.mismatchCause (frameOf .claim 3 154 301 [1, 0, 0]) = false) := by
  decide

/-- R179: the characters of the answer to READ-NOTICE, given whole over the port. -/
theorem test_answer_on_the_port :
    (let s := (noticesOf [fullNotice true]).mapPort fun p =>
        { p with transaction := .response, complete := some .readNotice, reply := .awaitsComplete };
      match exec .readNotice s with
      | .next t => decide (t.port.reply = .ready [0x5A, 0x01, 3, 7, 255, 31])
          && decide (t.notices.list = [fullNotice false])
      | _ => false) = true := by
  decide

/-! ## The steps of the block -/

theorem test_hyp_StepRunsTheFrontCommand :
    ({ State.reset with pending := [.join, .leave] } : State).pending = .join :: [.leave] := rfl

/-- Nothing due; one event due; two moves open. -/
theorem test_hyp_IdleStepTakesADueMove :
    State.reset.pending = [] ∧ State.reset.moves = [.period]
      ∧ (onLine (fun l => { l with recessiveCount := 11 }) State.reset).moves = [.event .lineIdle]
      ∧ ({ State.reset with port := { State.reset.port with complete := some .join } } : State).moves
        = [.event .join, .period] := by
  decide +kernel

/-! ## The local port -/

def portIn (tr : Transaction) (complete held : Option Instr) (reply : Reply) : State :=
  { State.reset with port := { State.reset.port with
      transaction := tr, csLow := true, complete := complete, held := held, reply := reply } }

/-- A character that completes nothing, and one that completes a command behind none, one and two. -/
theorem test_hyp_TransactionsAndCharacters_command :
    State.reset.port.csLow = false ∧ (portIn .command none none .none).port.csLow = true
      ∧ (portIn .command none none .none).port.transaction = .command
      ∧ parseCommand ((portIn .command none none .none).port.buffer ++ [0x10]) = none
      ∧ parseCommand ((portIn .command none none .none).port.buffer ++ [0x12]) = some .join
      ∧ (portIn .command none none .none).port.complete = none
      ∧ (portIn .command (some .leave) none .none).port.complete ≠ none
      ∧ (portIn .command (some .leave) none .none).port.held = none
      ∧ (portIn .command (some .leave) (some .join) .none).port.complete ≠ none
      ∧ (portIn .command (some .leave) (some .join) .none).port.held ≠ none := by
  decide

theorem test_hyp_TransactionsAndCharacters_response :
    (portIn .response none none (.ready [0x5A])).port.fillers = 0
      ∧ (portIn .response none none (.ready [0x5A])).port.reply = .ready (0x5A :: [])
      ∧ (∀ b rest, (portIn .response none none .awaitsHeld).port.reply ≠ .ready (b :: rest))
      ∧ (∀ b rest, (portIn .response none none (.ready [])).port.reply ≠ .ready (b :: rest))
      ∧ State.reset.port.transaction = .closed := by
  refine ⟨rfl, rfl, ?_, ?_, rfl⟩ <;> intro b rest h <;> cases h

theorem test_hyp_CommandLayouts :
    argumentCount 0x14 = none ∧ argumentCount 0xFF = none
      ∧ argumentCount 0x10 = some 7 ∧ ([1, 2, 3, 4, 5, 6] : List Byte).length < 7
      ∧ argumentCount 0x21 = some 1 ∧ ([] : List Byte).length < 1 := by
  decide

/-- A command that the port takes, standing complete or given whole; one behind another; and
REPEAT-RESPONSE with and without an answer kept. -/
theorem test_hyp_CommandAnswersAndQueueing :
    (Instr.drop 31).keptCharacter = some 0x21 ∧ State.reset.Takes (.drop 31)
      ∧ (portIn .response (some (.drop 31)) none .awaitsComplete).Takes (.drop 31)
      ∧ (portIn .response (some (.drop 31)) none .awaitsHeld).port.reply = .awaitsHeld
      ∧ (Instr.drop 31).hostCommand = true ∧ (Instr.leave : Instr) ≠ .drop 31
      ∧ (portIn .response (some .leave) none .none).port.complete = some .leave
      ∧ (portIn .response (some .leave) (some .join) .none).port.held = some .join
      ∧ (portIn .response (some .repeatResponse) none .awaitsComplete).port.complete
        = some .repeatResponse
      ∧ State.reset.port.last = none ∧ State.reset.Takes (.unknownCommand 0x14) := by
  decide

/-- The ends of every range of CONFIGURE and DEFINE-RESOURCE, and values just outside them. -/
theorem test_hyp_ConfigurationCommands :
    (inState .listening).Takes (.configure 16 0 1000 1 3) ∧ (inState .listening).ctrl.station ≠ .offline
      ∧ State.reset.ctrl.station = .offline
      ∧ configureInRange 16 0 1000 1 3 = true ∧ configureInRange 4095 7 32000 255 15 = true
      ∧ configureInRange 15 0 1000 1 3 = false ∧ configureInRange 4096 0 1000 1 3 = false
      ∧ configureInRange 16 8 1000 1 3 = false ∧ configureInRange 16 0 999 1 3 = false
      ∧ configureInRange 16 0 32001 1 3 = false ∧ configureInRange 16 0 1000 0 3 = false
      ∧ configureInRange 16 0 1000 1 2 = false ∧ configureInRange 16 0 1000 1 16 = false
      ∧ (63 : Resource).val = (63 : Byte).toNat ∧ (16 : Byte).toNat ≤ 16
      ∧ 63 < (64 : Byte).toNat ∧ 16 < (17 : Byte).toNat := by
  decide

theorem test_hyp_JoinAndLeaveByState :
    State.reset.Takes .join ∧ (inGroup .member).Takes .leave
      ∧ (inGroup .member).ctrl.station = .member ∧ (inGroup .leaving).ctrl.station = .leaving
      ∧ (inGroup .catchup).ctrl.leaveMark = false
      ∧ ((inGroup .catchup).mapCtrl fun c => { c with leaveMark := true }).ctrl.station = .catchup
      ∧ (inState .holdoff).ctrl.station = .holdoff ∧ State.reset.ctrl.station = .offline
      ∧ (withRecord 31 .queued .claim (inGroup .member)).records[(31 : RecordIndex)].state = .queued
      := by
  decide +kernel

/-- A member with QUEUED claims: record 0 with its frame READY, 31 ACTIVE, 5 gone from the queue, and 6
with frame mark NONE. -/
def claiming : State :=
  let queue := claims 1 ++ [inFlight (.fresh .claim (.claimUnit 31) [])];
  withRecord 0 .queued .claim (withRecord 31 .queued .claim (withRecord 5 .queued .claim
    (withRecord 6 .queued .none (queueOf queue (inGroup .member)))))

theorem test_hyp_JoinAndLeaveByState_claims :
    claiming.Takes .leave ∧ claiming.ctrl.station = .member ∧ claiming.tx.Law ∧ claiming.ClaimLaw
      ∧ (∀ k ∈ ([0, 5, 6, 31] : List RecordIndex), claiming.records[k].state = .queued
          ∧ claiming.records[k].cancelOwed = none)
      ∧ claiming.records[(31 : RecordIndex)].mark = .claim
      ∧ claiming.records[(6 : RecordIndex)].mark ≠ .claim
      ∧ (∀ e ∈ claiming.tx.queue, e.owner ≠ .claimUnit 5)
      ∧ (inFlight (.fresh .claim (.claimUnit 31) [])).state = .active
      ∧ ((inGroup .catchup).mapCtrl fun c => { c with failed := true }).ctrl.failed = true
      ∧ (onLine (fun l => { l with state := .contend }) (inState .founding)).line.state = .contend := by
  decide +kernel

/-- LEAVE completes the READY claim only, posts it, and marks the ACTIVE frame (R162, R168). -/
theorem test_leave_withdraws_claims :
    (match exec .leave claiming with
      | .next t => decide (t.notices = claiming.notices.post (.slot 0) 0)
          && decide (t.records[(0 : RecordIndex)].outcome = some .cancelled)
          && decide (t.records[(31 : RecordIndex)].cancelOwed = some .withdrawn)
          && decide (t.tx.queue.map TxEntry.cancel = [true, false])
      | _ => false) = true := by
  decide +kernel

/-- Slot 7, resource 63, record 31 and a queue of 5, with and without a report that waits for the
record; and each refusal at its first value. -/
theorem test_hyp_ClaimTakenOrRefused :
    (inGroup .member).Takes (.claim 7 63 3 0) ∧ (inGroup .member).ctrl.station = .member
      ∧ (7 : Slot).val = (7 : Byte).toNat ∧ (63 : Resource).val = (63 : Byte).toNat
      ∧ 7 < (8 : Byte).toNat ∧ 63 < (64 : Byte).toNat
      ∧ (let s := queueOf (claims 5) { inGroup .member with
            records := (Vector.replicate 32 { ClaimRecord.freed .claim with state := .done }).set 31
              (.freed .none) };
        (∀ j : RecordIndex, s.records[j].state.live = false)
          ∧ s.records[(31 : RecordIndex)].state = .free ∧ s.records[(31 : RecordIndex)].mark = .none
          ∧ (∀ j : RecordIndex, j < 31 → s.records[j].state ≠ .free)
          ∧ s.tx.queue.length ≤ 5 ∧ (∀ e ∈ s.tx.queue, e.owner ≠ .claimUnit 31)
          ∧ s.tx.reports = []
          ∧ .accepted .claim (.claimUnit 31) ∈ (s.mapTx fun t =>
              { t with reports := [.accepted .claim (.claimUnit 31)] }).tx.reports)
      ∧ (let s := withRecord 31 .granted .none (inGroup .member);
        s.records[(31 : RecordIndex)].state.live = true ∧ s.records[(31 : RecordIndex)].slot = 0
          ∧ s.records[(31 : RecordIndex)].resource = 0)
      ∧ (let s : State := { inGroup .member with records := Vector.replicate 32 (.freed .drop) };
        ∀ j : RecordIndex, s.records[j].state.live = false ∧ s.records[j].mark ≠ .none)
      ∧ (let s := queueOf (claims 6) (inGroup .member);
        s.records[(31 : RecordIndex)].state = .free ∧ s.records[(31 : RecordIndex)].mark = .none
          ∧ 5 < s.tx.queue.length) := by
  decide +kernel

theorem test_hyp_DropRefusedOrTaken :
    (inGroup .leaving).Takes (.drop 31) ∧ (inGroup .leaving).ctrl.station = .leaving
      ∧ (inState .offline).ctrl.station ≠ .member ∧ (inState .offline).ctrl.station ≠ .leaving
      ∧ 31 < (32 : Byte).toNat ∧ (31 : RecordIndex).val = (31 : Byte).toNat
      ∧ (let s := withRecord 31 .dropping .none (inGroup .member);
        s.records[(31 : RecordIndex)].state = .dropping)
      ∧ (let s := (withRecord 31 .queued .claim (inGroup .member)).mapRecord 31 fun r =>
            { r with cancelOwed := some .withdrawn };
        s.records[(31 : RecordIndex)].cancelOwed.isSome = true)
      ∧ (inGroup .member).records[(31 : RecordIndex)].state = .free
      ∧ (let s := queueOf (claims 6) (withRecord 31 .waiting .none (inGroup .member));
        s.records[(31 : RecordIndex)].state = .waiting ∧ s.records[(31 : RecordIndex)].mark = .none
          ∧ 5 < s.tx.queue.length ∧ ∀ e ∈ s.tx.queue, e.owner ≠ .claimUnit 31)
      ∧ (let s := queueOf (claims 5) (withRecord 31 .granted .none (inGroup .member));
        s.records[(31 : RecordIndex)].state = .granted ∧ s.tx.queue.length ≤ 5
          ∧ ∀ e ∈ s.tx.queue, e.owner ≠ .claimUnit 31)
      ∧ (let s := queueOf (claims 8) (withRecord 7 .waiting .claim (inGroup .member));
        s.records[(7 : RecordIndex)].mark = .claim ∧ ∃ e ∈ s.tx.queue, e.owner = .claimUnit 7) := by
  decide +kernel

/-- The CLAIM entry of the record gone from the queue, with 7 and with 8 entries there. -/
theorem test_hyp_DropRefusedOrTaken_entry_gone :
    (∀ state ∈ [RecordState.waiting, .granted],
      let s (n : Nat) := queueOf (claims n) (withRecord 31 state .claim (inGroup .member));
      (s 7).records[(31 : RecordIndex)].state = state
        ∧ (s 7).records[(31 : RecordIndex)].mark = .claim
        ∧ (∀ e ∈ (s 8).tx.queue, e.owner ≠ .claimUnit 31)
        ∧ (s 7).tx.queue.length < 8 ∧ (s 7).OwedLaw ∧ 8 ≤ (s 8).tx.queue.length) := by
  decide +kernel

theorem test_hyp_DropOfQueuedClaim :
    let s := queueOf (claims 3) (withRecord 2 .queued .claim (inGroup .member));
    s.Takes (.drop 2) ∧ (2 : RecordIndex).val = (2 : Byte).toNat
      ∧ s.records[(2 : RecordIndex)].state = .queued
      ∧ s.records[(2 : RecordIndex)].cancelOwed = none ∧ s.records[(2 : RecordIndex)].mark = .claim
      ∧ s.tx.queue = claims 2 ++ .fresh .claim (.claimUnit 2) [] :: []
      ∧ (∀ x ∈ claims 2, x.owner ≠ .claimUnit 2)
      ∧ (TxEntry.fresh .claim (.claimUnit 2) []).state = .ready
      ∧ (inFlight (.fresh .claim (.claimUnit 2) [])).state = .active
      ∧ (∀ x ∈ (queueOf (claims 2) s).tx.queue, x.owner ≠ .claimUnit 2)
      ∧ (withRecord 2 .queued .none s).records[(2 : RecordIndex)].mark = .none := by
  decide +kernel

theorem test_hyp_RecordsReadAndRetired :
    State.reset.Takes (.readClaim 31 1) ∧ State.reset.Takes (.retire 31) ∧ 31 < (32 : Byte).toNat
      ∧ (31 : RecordIndex).val = (31 : Byte).toNat ∧ (1 : Byte).getLsbD 0 = true
      ∧ (0xFE : Byte).getLsbD 0 = false
      ∧ (withRecord 31 .done .drop State.reset).records[(31 : RecordIndex)].state = .done
      ∧ State.reset.records[(31 : RecordIndex)].state = .free
      ∧ (withRecord 31 .dropping .none State.reset).records[(31 : RecordIndex)].state = .dropping := by
  decide +kernel

theorem test_hyp_ReadNoticeAnswer :
    State.reset.Takes .readNotice ∧ State.reset.notices.list = []
      ∧ (noticesOf [fullNotice true]).notices.list = fullNotice true :: [] := by
  decide

theorem test_hyp_AckNoticeAnswer :
    State.reset.Takes (.ackNotice 7 255)
      ∧ (¬ ((0x08 : Byte).toNat ≤ 7 ∨ 0x10 ≤ (0x08 : Byte).toNat ∧ (0x08 : Byte).toNat ≤ 0x15))
      ∧ (¬ ((0x16 : Byte).toNat ≤ 7 ∨ 0x10 ≤ (0x16 : Byte).toNat ∧ (0x16 : Byte).toNat ≤ 0x15))
      ∧ ((7 : Byte).toNat ≤ 7 ∧ 0x10 ≤ (0x10 : Byte).toNat ∧ (0x15 : Byte).toNat ≤ 0x15)
      ∧ (noticesOf [fullNotice true]).notices.list = fullNotice true :: []
      ∧ (fullNotice true).subject.code ≠ 0x15 ∧ (fullNotice true).subject.code = 7
      ∧ (fullNotice true).count ≠ (254 : Byte).toNat ∧ (fullNotice true).count = (255 : Byte).toNat
      ∧ (fullNotice true).saturated = true ∧ (fullNotice false).saturated = false := by
  decide

theorem test_hyp_PostCoalesces :
    (∀ n ∈ (noticesOf []).notices.list, n.subject ≠ .joined)
      ∧ (noticesOf [fullNotice false]).notices.list = [] ++ fullNotice false :: []
      ∧ (fullNotice false).subject = .slot 7 ∧ 255 ≤ (fullNotice false).count
      ∧ ({ fullNotice false with count := 254 } : Notice).count < 255 := by
  decide

theorem test_hyp_StatusAndResourceRead :
    State.reset.Takes .readStatus ∧ State.reset.Takes (.readResource 63 255)
      ∧ State.reset.table.condition ≠ .present ∧ (inGroup .member).table.condition = .present
      ∧ 63 < (64 : Byte).toNat ∧ (63 : Resource).val = (63 : Byte).toNat := by
  decide

theorem test_hyp_ReadRosterAnswer :
    State.reset.Takes .readRoster ∧ State.reset.table.condition ≠ .present
      ∧ (inGroup .member).table.condition = .present
      ∧ ({ inGroup .member with table := { replica with roster := List.finRange 32 } } :
        State).table.roster.length = 32 := by
  decide

/-! ## Timebase and line interface -/

/-- Running with and without time left, frozen and stopped timers at a tick. -/
theorem test_hyp_TimebaseTickCountsTimers :
    let s := { (inGroup .member).mapCtrl fun c =>
        { c with listen := .frozen 0, presence := .running 1, stall := .running 0 } with
      timebase := 1000 };
    s.port.store.timebase ≤ s.timebase ∧ s.ctrl.presence = .running (0 + 1)
      ∧ s.ctrl.listen = .frozen 0 ∧ s.ctrl.stall = .running 0 ∧ s.ctrl.ask = .stopped
      ∧ s.ctrl.silence[(3 : Station)] = some (.running (6 + 1))
      ∧ (∀ n, s.ctrl.silence[(6 : Station)] ≠ some (.running (n + 1)))
      ∧ (s.mapRecord 31 fun r => { r with waitTimer := some 1 }).records[(31 : RecordIndex)].waitTimer
        = some (0 + 1)
      ∧ ∀ n, s.records[(31 : RecordIndex)].waitTimer ≠ some (n + 1) := by
  refine ⟨by decide, rfl, rfl, rfl, rfl, rfl, ?_, rfl, ?_⟩ <;> intro n h <;> cases h

/-- An own attempt in flight with 14 and with 15 failures behind it. -/
def attempt (state : LineState) (attempts : Nat) (bit : Level) (s : State) : State :=
  { onLine (fun l => { l with state := state, shift := some ⟨[.dominant, bit], false, true⟩ }) s with
    tx := { queue := [inFlight (.fresh .presence .controller [])], attempts := attempts,
            frame := [0x03], reports := [], startReport := false } }

/-- The drives; the period of an edge; and the first, a middle and the last period of a bit, the last
in every state of the line interface and within a character. -/
theorem test_hyp_ClockAndBitTiming :
    (let s := onLine (fun l => { l with breakDrive := some 15 }) State.reset;
      s.line.breakDrive = some 15 ∧ s.line.breakWait = none
        ∧ (onLine (fun l => { l with breakWait := some .recessive }) s).line.breakWait
          = some .recessive)
      ∧ State.reset.line.breakDrive = none ∧ State.reset.line.vetoDriving = false
      ∧ (onLine (fun l => { l with vetoDriving := true }) State.reset).line.vetoDriving = true
      ∧ (let s := attempt .sending 0 .recessive State.reset;
        s.line.state = .sending ∧ s.line.breakDrive = none ∧ s.line.vetoDriving = false
          ∧ s.line.shift = some ⟨[.dominant, .recessive], false, true⟩
          ∧ s.tx.frame[s.line.txChar]? = some 0x03)
      ∧ (let s := { onLine (fun l => { l with lastRecessive := true }) State.reset with
            lineIn := [.pulled] };
        s.line.state = .settling ∧ s.line.shift = none ∧ s.line.lastRecessive = true
          ∧ s.lineIn.head? = some .pulled)
      ∧ State.reset.line.bitPos = 0 ∧ State.reset.line.lastRecessive = false
      ∧ State.reset.lineIn.head? = none ∧ State.reset.line.acc + State.reset.port.store.f < 8
      ∧ State.reset.line.bitPos + 1 < State.reset.port.store.d
      ∧ (let s := onLine (fun l => { l with bitPos := 6, bitLen := 8 }) State.reset;
        s.line.bitPos ≠ 0 ∧ s.line.bitPos + 1 < s.line.bitLen)
      ∧ (∀ state ∈ [LineState.window, .settling, .breaking, .fault, .receiving, .idle, .contend,
          .sending],
        let s := onLine (fun l => { l with state := state, bitPos := 7, bitLen := 8 }) State.reset;
        s.line.state = state ∧ s.line.shift = none ∧ s.line.lastRecessive = false
          ∧ s.line.bitPos ≠ 0 ∧ s.line.bitLen ≤ s.line.bitPos + 1)
      ∧ (let s := onLine (fun l => { l with bitPos := 7, bitLen := 8 })
          (attempt .sending 0 .recessive State.reset);
        s.line.shift = some ⟨[.dominant, .recessive], false, true⟩
          ∧ s.line.bitLen ≤ s.line.bitPos + 1) := by
  decide

/-- The last period of a bit sampled dominant twice: the run rises, and the level joins the character
with the noise mark. -/
theorem test_bit_end :
    (let s := onLine (fun l =>
          { l with bitPos := 7, bitLen := 8, samples := [.dominant, .recessive, .dominant],
                   dominantRun := 1023, shift := some ⟨[.dominant], false, false⟩ }) State.reset;
      s.clock.line.dominantRun = 1024 ∧ s.clock.line.bitPos = 0
        ∧ s.clock.line.shift = some ⟨[.dominant, .dominant], true, false⟩) := by
  decide

/-- A start edge waiting, and its start bit judged either way; the aligned edge at its first period, with
a DROP between a CLAIM and a PRESENCE. -/
theorem test_hyp_StartEdges :
    (let s := onLine (fun l => { l with edge := true }) State.reset;
      s.line.shift = none ∧ s.line.edge = true ∧ s.line.state = .settling ∧ s.offered = false
        ∧ s.port.store.f ≤ 7)
      ∧ (let s := onLine (fun l => { l with shift := some ⟨[.dominant], true, false⟩ }) State.reset;
        s.line.shift = some ⟨[.dominant], true, false⟩)
      ∧ (let s := onLine (fun l =>
          { l with state := .idle, shift := some ⟨[.recessive], true, false⟩ }) State.reset;
        s.line.shift = some ⟨[.recessive], true, false⟩ ∧ s.line.state = .idle)
      ∧ (let drop := TxEntry.fresh .drop (.claimUnit 9) [1, 9];
        let presence := TxEntry.fresh .presence .controller [];
        let s := queueOf (claims 1 ++ drop :: [presence]) (onLine (fun l =>
          { l with edge := true, recessiveCount := 10, bitPos := 12, bitLen := 16 }) State.reset);
        s.line.state = .settling ∧ s.offered = true ∧ s.line.shift = none
          ∧ s.line.recessiveCount + 1 = s.line.settleLen ∧ s.line.bitPos ≠ 0
          ∧ s.line.bitLen - s.port.store.d / 4 ≤ s.line.bitPos
          ∧ s.tx.queue = claims 1 ++ drop :: [presence]
          ∧ (∀ x ∈ claims 1, drop.kind.rank < x.kind.rank)
          ∧ ∀ x ∈ [presence], drop.kind.rank ≤ x.kind.rank) := by
  decide

def idleLine (s : State) : State := onLine (fun l => { l with state := .idle }) s

theorem test_hyp_AttemptStarts :
    (let drop := TxEntry.fresh .drop (.claimUnit 9) [1, 9];
      let presence := TxEntry.fresh .presence .controller [];
      let s := idleLine (queueOf (claims 1 ++ drop :: [presence]) State.reset);
      s.line.state = .idle ∧ s.line.shift = none ∧ s.rx.inbox = [] ∧ s.rx.handoff = none
        ∧ s.tx.queue = claims 1 ++ drop :: [presence] ∧ (∀ x ∈ s.tx.queue, x.state = .ready)
        ∧ (∀ x ∈ claims 1, drop.kind.rank < x.kind.rank)
        ∧ ∀ x ∈ [presence], drop.kind.rank ≤ x.kind.rank)
      ∧ (let s := (idleLine State.reset).mapTx fun t => { t with startReport := true };
        s.line.state = .idle ∧ s.line.shift = none ∧ s.tx.startReport = true ∧ s.tx.queue = [])
      ∧ (idleLine State.reset).tx.startReport = false := by
  decide

/-- An EVICT held back by its guard before a PRESENCE that is taken, a DROP at the head, and every
owed frame held back; with 7 and with 8 entries queued. -/
theorem test_hyp_AttemptStarts_owed :
    let owing := (inGroup .member).mapCtrl fun c =>
      { c with evictInHand := some ⟨6, .owed⟩, owed := { c.owed with presence := true } };
    let evict := TxEntry.fresh .evict .controller [3];
    let s := queueOf (claims 6 ++ [evict]) owing;
    let full := queueOf (claims 7 ++ [evict]) owing;
    s.owedFrames = [.evict 6] ++ .presence :: [] ∧ s.tx.queue.length < 8
      ∧ guardMet s.tx.queue .evict .controller = false
      ∧ admits s.ctrl.station .presence = true
      ∧ guardMet s.tx.queue .presence .controller = true
      ∧ full.owedFrames = [.evict 6, .presence] ∧ 8 ≤ full.tx.queue.length
      ∧ (let s := (withRecord 31 .dropping .none (inGroup .leaving)).mapRecord 31 fun r =>
          { r with owedDrop := true };
        s.owedFrames = [] ++ .drop 31 :: [] ∧ admits s.ctrl.station .drop = true
          ∧ guardMet s.tx.queue .drop (.claimUnit 31) = true)
      ∧ (let s := queueOf [evict] ((inGroup .member).mapCtrl fun c =>
          { c with evictInHand := some ⟨6, .owed⟩ });
        s.owedFrames = [.evict 6] ∧ guardMet s.tx.queue .evict .controller = false) := by
  decide +kernel

/-- All that a LEAVING station can owe, in the order of R67. -/
theorem test_owed_precedence :
    (let s := ((inGroup .leaving).mapRecord 31 fun r => { r with owedDrop := true }).mapCtrl fun c =>
        { c with evictInHand := some ⟨3, .owed⟩, donor := .donating 6,
                 owed := { c.owed with leave := true, snapshot := true, presence := true } };
      s.owedFrames.map OwedFrame.kind = [.leave, .evict, .snapshot, .presence, .drop]
        ∧ s.handOut.tx.queue.map TxEntry.kind = [.leave, .evict, .snapshot, .presence, .drop]) := by
  decide +kernel

/-- An offer withdrawn while the line settles starts nothing (R56, R70); one withdrawn after the line
interface has become idle with it starts a start bit that a break ends (R71). -/
theorem test_withdrawn_offers :
    (let settled (q : List TxEntry) : State :=
        queueOf q (onLine (fun l => { l with recessiveCount := 11 }) State.reset);
      let idle (q : List TxEntry) : Option State :=
        match exec .lineIdle (settled q) with
        | .next t => some (queueOf [] t)
        | _ => none;
      ((idle []).map State.attemptStartDue) = some false
        ∧ ((idle (claims 1)).map State.attemptStartDue) = some true) := by
  decide +kernel

/-- The bits of a character whose marker and stop bits have the given levels. -/
def bitsOf (value : Byte) (marker stop : Level) : List Level :=
  (List.range 9).map (charBit value false) ++ [marker, stop]

def sampling (state : LineState) (h : Shift) (pos : Nat) (len : Option Byte) : State :=
  onLine (fun l =>
    { l with state := state, shift := some h, framePos := pos, frameLen := len, dominantRun := 11 })
    State.reset

/-- A character of the stream, at rest. -/
def held : StreamItem :=
  .char { value := 0, marker := .dominant, noise := false, framing := false, overrun := false }

/-- The sixth character of a frame; the last character of a frame of 24; and of a malformed frame. -/
theorem test_hyp_CharactersComplete :
    (let h : Shift := ⟨bitsOf 24 .dominant .dominant, true, true⟩;
      let s := sampling .receiving h 5 none;
      s.line.shift = some h ∧ h.bits.length = 11 ∧ s.line.dominantRun < 12 ∧ s.line.charCount < 5
        ∧ s.line.framePos + 1 ≠ 8 + (24 : Byte).toNat)
      ∧ (let h : Shift := ⟨bitsOf 0xFF .dominant .recessive, false, true⟩;
        let s := sampling .receiving h 31 (some 24);
        h.bits[9]? = some .dominant ∧ s.line.framePos ≠ 0 ∧ s.line.framePos ≠ 5
          ∧ s.line.frameLen = some 24
          ∧ s.line.framePos + 1 = if (24 : Byte).toNat ≤ 24 then 8 + (24 : Byte).toNat else 8)
      ∧ (let h : Shift := ⟨bitsOf 0xFF .dominant .recessive, false, true⟩;
        let s := { sampling .sending h 7 (some 25) with
          tx := { Transmitter.empty with frame := [0xFF] } };
        s.mismatchDue = false ∧ s.line.state = .sending
          ∧ s.line.framePos + 1 = if (25 : Byte).toNat ≤ 24 then 8 + (25 : Byte).toNat else 8)
      ∧ (let c : RxChar := { value := 0, marker := .dominant, noise := false, framing := false,
                             overrun := false };
        (([.char c, .truncation, .char c, .char c, .char c] : List StreamItem).filter
          StreamItem.isChar).length = 4 ∧ StreamItem.opening.isChar = false) := by
  decide

/-- The same two characters with 4 in the FIFO and one waiting: the frame goes on, or its window opens,
and the waiting character takes the mark (R53, R84). -/
theorem test_hyp_CharactersComplete_full :
    let marks (s : State) : Option (LineState × Nat × List Bool) :=
      match exec .characterComplete (withStream (List.replicate 5 held) s) with
      | .next t => some (t.line.state, t.line.framePos, t.line.stream.map fun x => match x with
          | .char c => c.overrun
          | _ => false)
      | _ => none;
    ¬ (withStream (List.replicate 5 held) State.reset).line.charCount < 5
      ∧ marks (sampling .receiving ⟨bitsOf 24 .dominant .recessive, true, true⟩ 5 none)
        = some (.receiving, 6, [false, false, false, false, true])
      ∧ marks (sampling .receiving ⟨bitsOf 0xFF .dominant .recessive, false, true⟩ 31 (some 24))
        = some (.window, 0, [false, false, false, false, true, false]) := by
  decide

theorem test_hyp_ArbitrationWonByRank :
    FrameKind.announce.rank < FrameKind.drop.rank
      ∧ (let h : Shift := ⟨bitsOf 0xFF .recessive .recessive, false, true⟩;
        let s := { sampling .contend h 0 none with
          tx := { Transmitter.empty with frame := [0xFF] } };
        s.line.state = .contend ∧ h.bits.length = 11 ∧ s.lossDue = false ∧ s.mismatchDue = false
          ∧ s.line.framePos = 0 ∧ h.bits[9]? = some .recessive)
      ∧ (let h : Shift := ⟨bitsOf 0xFF .dominant .recessive, false, true⟩;
        let s := onLine (fun l => { l with txChar := 1 }) { sampling .contend h 1 none with
          tx := { Transmitter.empty with frame := [0, 0xFF] } };
        s.lossDue = false ∧ s.mismatchDue = false ∧ s.line.framePos = 1) := by
  decide

/-- Character 3 of the own frame, and one that finds the FIFO full. -/
theorem test_hyp_ArbitrationWonByRank_sending :
    let h : Shift := ⟨bitsOf 0xFF .dominant .recessive, false, true⟩;
    let s := onLine (fun l => { l with txChar := 2 }) { sampling .sending h 2 none with
      tx := { Transmitter.empty with frame := [0, 0, 0xFF, 0] } };
    s.line.state = .sending ∧ s.mismatchDue = false ∧ s.line.shift = some h ∧ h.bits.length = 11
      ∧ s.line.dominantRun < 12 ∧ s.line.frameLen = none ∧ s.line.breakDrive = none
      ∧ s.line.vetoDriving = false ∧ s.tx.frame[s.line.txChar + 1]? = some 0
      ∧ (withStream (List.replicate 5 held) s).mismatchDue = false
      ∧ ¬ (withStream (List.replicate 5 held) s).line.charCount < 5 := by
  decide

theorem test_hyp_CountsEndGapsSettlingBreaksAndDrives :
    (let s := onLine (fun l => { l with state := .receiving, recessiveCount := 4, framePos := 1 })
        State.reset;
      s.line.state = .receiving ∧ s.line.shift = none ∧ s.line.edge = false
        ∧ 4 ≤ s.line.recessiveCount ∧ s.line.framePos ≠ 0)
      ∧ (let s := onLine (fun l => { l with recessiveCount := 11 }) State.reset;
        s.line.state = .settling ∧ s.line.settleLen ≤ s.line.recessiveCount)
      ∧ (let s := onLine (fun l => { l with recessiveCount := 32, settleLen := 33 }) State.reset;
        s.line.recessiveCount < s.line.settleLen)
      ∧ (let s := onLine (fun l => { l with state := .breaking, recessiveCount := 1 }) State.reset;
        s.line.state = .breaking ∧ s.line.breakDrive = none ∧ 1 ≤ s.line.recessiveCount)
      ∧ (let s := onLine (fun l => { l with vetoDriving := true, windowTimer := 16 }) State.reset;
        s.line.vetoDriving = true ∧ 16 ≤ s.line.windowTimer)
      ∧ (let s := onLine (fun l => { l with vetoDriving := true, windowTimer := 15 }) State.reset;
        s.line.windowTimer < 16)
      ∧ (let s := onLine (fun l => { l with breakDrive := some 16 }) State.reset;
        s.line.breakDrive = some 16 ∧ 16 ≤ 16)
      ∧ (let s := onLine (fun l => { l with breakDrive := some 15 }) State.reset;
        s.line.breakDrive = some 15 ∧ 15 < 16) := by
  decide

/-- An entry of the controller that carries the cancel mark. -/
def marked (kind : FrameKind) : TxEntry := { TxEntry.fresh kind .controller [] with cancel := true }

theorem test_hyp_ArbitrationLossAndMismatch :
    (let s := attempt .contend 14 .dominant (inGroup .member);
      s.line.state = .contend ∧ s.line.shift = some ⟨[.dominant] ++ [.dominant], false, true⟩
        ∧ s.frameLevel 1 = .recessive
        ∧ s.Attempt [] (inFlight (.fresh .presence .controller [])) []
        ∧ (inFlight (.fresh .presence .controller [])).cancel = false
        ∧ (inFlight (marked .presence)).cancel = true
        ∧ (queueOf [inFlight (marked .presence)] s).Attempt [] (inFlight (marked .presence)) [])
      ∧ (let s := attempt .sending 14 .dominant (inGroup .member);
        s.line.state = .sending ∧ s.frameLevel 1 ≠ .dominant ∧ s.line.bitPos = 0
          ∧ s.tx.attempts < 15
          ∧ s.Attempt [] (inFlight (.fresh .presence .controller [])) [])
      ∧ (let s := queueOf [inFlight (marked .presence)] (attempt .sending 14 .dominant (inGroup .member));
        s.frameLevel 1 ≠ .dominant ∧ s.tx.attempts < 15
          ∧ (inFlight (marked .presence)).cancel = true
          ∧ s.Attempt [] (inFlight (marked .presence)) [])
      ∧ (let s := { attempt .contend 15 .recessive (inGroup .member) with
            tx := { (attempt .contend 15 .recessive (inGroup .member)).tx with frame := [0x02] } };
        s.frameLevel 1 = .dominant ∧ 15 ≤ s.tx.attempts ∧ s.CanDetach
          ∧ s.Attempt [] (inFlight (.fresh .presence .controller [])) []) := by
  decide

/-- A marked entry that ends its attempt is gone from a full queue, and the PRESENCE that was owed has
the place (R67, R79). -/
theorem test_removed_entry_is_gone :
    let owing := (inGroup .member).mapCtrl fun c => { c with owed := { c.owed with presence := true } };
    let s := queueOf (inFlight (marked .evict) :: claims 7) (attempt .contend 0 .dominant owing);
    (match exec .arbitrationLoss s with
      | .next t => decide (t.tx.queue = claims 7 ++ [.fresh .presence .controller []])
          && decide (t.tx.reports = [.withdrawn .evict .controller])
      | _ => false) = true := by
  decide +kernel

theorem test_hyp_WindowsClose :
    (let s := onLine (fun l => { l with state := .window, windowTimer := 22 }) State.reset;
      s.line.state = .window ∧ 22 ≤ s.line.windowTimer ∧ s.line.windowOwn = false
        ∧ s.line.dominantRun = 0)
      ∧ (let s := onLine (fun l => { l with state := .window, windowTimer := 22, dominantRun := 1 })
          State.reset;
        s.line.dominantRun ≠ 0)
      ∧ (let s := onLine (fun l => { l with windowTimer := 22, windowOwn := true, vetoSeen := true })
          (attempt .window 14 .recessive (inGroup .member));
        s.line.state = .window ∧ s.line.windowOwn = true ∧ s.line.vetoSeen = true
          ∧ s.tx.attempts < 15 ∧ s.Attempt [] (inFlight (.fresh .presence .controller [])) []
          ∧ (onLine (fun l => { l with vetoSeen := false }) s).line.vetoSeen = false
          ∧ (queueOf [inFlight (marked .presence)] s).Attempt [] (inFlight (marked .presence)) [])
      ∧ (let s := queueOf [inFlight (marked .presence)]
          (onLine (fun l => { l with windowTimer := 22, windowOwn := true, vetoSeen := true })
            (attempt .window 15 .recessive (inGroup .member)));
        s.line.vetoSeen = true ∧ (inFlight (marked .presence)).cancel = true ∧ 15 ≤ s.tx.attempts
          ∧ s.CanDetach ∧ s.Attempt [] (inFlight (marked .presence)) [])
      ∧ 12 ≤ 17 := by
  decide

/-- An own window whose entry a flush has removed, a later frame being READY. -/
theorem test_hyp_WindowsClose_flushed :
    let s := queueOf (claims 1) (onLine (fun l =>
      { l with state := .window, windowTimer := 22, windowOwn := true, dominantRun := 1 })
      (inGroup .member));
    s.line.windowOwn = true ∧ s.line.dominantRun ≠ 0 ∧ ∀ e ∈ s.tx.queue, e.state = .ready := by
  decide

theorem test_hyp_BreakTakenAtTwelve :
    (let s := onLine (fun l => { l with dominantRun := 12 }) State.reset;
      12 ≤ s.line.dominantRun ∧ s.line.state = .settling)
      ∧ (let s := onLine (fun l => { l with dominantRun := 12, shift := none })
          (attempt .sending 14 .recessive (inGroup .member));
        s.line.state = .sending ∧ s.lossDue = false ∧ s.mismatchDue = false ∧ s.tx.attempts < 15
          ∧ s.Attempt [] (inFlight (.fresh .presence .controller [])) []
          ∧ (queueOf [inFlight (marked .presence)] s).Attempt [] (inFlight (marked .presence)) [])
      ∧ (let s := queueOf [inFlight (marked .presence)]
          (onLine (fun l => { l with dominantRun := 12, shift := none })
            (attempt .contend 15 .recessive (inGroup .member)));
        s.line.state = .contend ∧ s.lossDue = false ∧ s.mismatchDue = false ∧ 15 ≤ s.tx.attempts
          ∧ s.CanDetach ∧ (inFlight (marked .presence)).cancel = true
          ∧ s.Attempt [] (inFlight (marked .presence)) []) := by
  decide

theorem test_hyp_LineFaultAndRecovery :
    (let s := onLine (fun l => { l with state := .breaking, dominantRun := 1024 })
        ((inState .listening).mapCtrl fun c => { c with listen := .running 0 });
      s.line.state = .breaking ∧ 1024 ≤ s.line.dominantRun ∧ s.ctrl.station = .listening
        ∧ s.ctrl.listen = .running 0)
      ∧ (let s := onLine (fun l => { l with state := .window, dominantRun := 1024 }) (inGroup .member);
        s.line.state = .window ∧ 1024 ≤ s.line.dominantRun)
      ∧ (inGroup .member).ctrl.silence[(3 : Station)] = some (.running 7)
      ∧ (inGroup .member).ctrl.station ≠ .listening
      ∧ (let s := onLine (fun l => { l with state := .fault, recessiveCount := 22 })
          ((inState .listening).mapCtrl fun c => { c with listen := .frozen 0 });
        s.line.state = .fault ∧ 22 ≤ s.line.recessiveCount ∧ s.ctrl.station ≠ .catchup
          ∧ s.ctrl.station ≠ .member ∧ s.ctrl.station ≠ .leaving ∧ s.ctrl.listen = .frozen 0)
      ∧ (let s := onLine (fun l => { l with state := .fault, recessiveCount := 22 }) (inGroup .leaving);
        s.line.state = .fault ∧ s.ctrl.station = .leaving) := by
  decide

/-! ## Receiver -/

def plain (value : Byte) (marker : Level) : RxChar :=
  { value := value, marker := marker, noise := false, framing := false, overrun := false }

/-- A frame in progress with the given characters. -/
def assembling (chars : List Byte) (s : State) : State :=
  { s with rx := { s.rx with
      assembly := some { chars := chars.map fun v => plain v .dominant, overrun := false } } }

theorem test_hyp_ItemsTakenFromTheStream :
    (let s := withStream [.char (plain 3 .recessive)] State.reset;
      s.line.stream = .char (plain 3 .recessive) :: [] ∧ (plain 3 .recessive).marker = .recessive)
      ∧ (let a : Assembly := { chars := (List.replicate 31 0x18).map fun v => plain v .dominant,
                               overrun := false };
        (assembling (List.replicate 31 0x18) State.reset).rx.assembly = some a
          ∧ a.chars.length < 32 ∧ a.length = some 0x18
          ∧ a.chars.length < if (0x18 : Byte).toNat ≤ 24 then 8 + (0x18 : Byte).toNat else 8)
      ∧ (∀ x ∈ [((8 : Nat), (0 : Byte)), (32, 24), (8, 25), (31, 0xFF)],
        let a : Assembly := { chars := (List.replicate x.1 x.2).map fun v => plain v .dominant,
                              overrun := false };
        (assembling (List.replicate x.1 x.2) State.reset).rx.assembly = some a
          ∧ a.length = some x.2
          ∧ (if x.2.toNat ≤ 24 then 8 + x.2.toNat else 8) ≤ a.chars.length)
      ∧ State.reset.rx.assembly = none
      ∧ (withStream [.truncation] State.reset).line.stream = .truncation :: []
      ∧ (withStream [.lineBreak] State.reset).line.stream = .lineBreak :: [] := by
  decide

/-- A PRESENCE of station 6 that reaches its opening whole. -/
def arrived (s : State) : State :=
  onLine (fun l => { l with state := .window }) (withStream [.opening]
    (assembling (frameChars .presence 6 154 500 []) s))

/-- A CLAIM of the junior station 6 with a TSEQ that differs. -/
def stale (s : State) : State :=
  onLine (fun l => { l with state := .window }) (withStream [.opening]
    (assembling (frameChars .claim 6 154 499 [1, 2, 0]) s))

/-- A frame whose check fails. -/
def spoiled (s : State) : State :=
  onLine (fun l => { l with state := .window }) (withStream [.opening]
    (assembling [3, 6, 154, 0, 0, 0, 0, 0] s))

def decision (s : State) : Option VetoKind :=
  s.rx.assembly.bind fun a => s.vetoDecision a (a.frame fun _ => 0)

theorem test_hyp_WindowOpeningsAnswered :
    (withStream [.opening] State.reset).line.stream = .opening :: []
      ∧ decision (arrived (inGroup .member)) = none
      ∧ decision (stale (inGroup .member)) = some .mismatch
      ∧ decision (spoiled (inGroup .member)) = some .failure
      ∧ ((arrived (inGroup .member)).rx.assembly.map Assembly.short) = some false
      ∧ ((stale (inGroup .member)).rx.assembly.map Assembly.short) = some false
      ∧ ((spoiled (inGroup .member)).rx.assembly.map Assembly.short) = some false
      ∧ (inGroup .member).rx.inbox.length < 2 ∧ (spoiled (inGroup .member)).line.state = .window
      ∧ (let s := (spoiled (inGroup .member)).mapRx fun r => { r with ownVetoes := 6 };
        s.rx.ownVetoes < 7 ∧ decision s = some .failure)
      ∧ (let s := (spoiled (inGroup .member)).mapRx fun r => { r with ownVetoes := 7 };
        7 ≤ s.rx.ownVetoes ∧ decision s = some .failure) := by
  decide +kernel

/-- A frame of two characters; an inbox that holds 2, which is a cause of a failure veto (R89) where the
station participates; and the states that do not participate. -/
theorem test_hyp_WindowOpeningsAnswered_short_and_full :
    (let s := onLine (fun l => { l with state := .window })
        (withStream [.opening] (assembling [3, 6] ((inGroup .member).mapRx fun r =>
          { r with ownVetoes := 7 })));
      (s.rx.assembly.map Assembly.short) = some true ∧ decision s = some .failure
        ∧ s.line.state = .window ∧ 7 ≤ s.rx.ownVetoes)
      ∧ (let held : InboxFrame :=
            { frame := frameOf .presence 6 154 500 [], accepted := true, ownVeto := false };
          let full (s : State) : State := s.mapRx fun r => { r with inbox := [held, held] };
        ¬ (full (arrived (inGroup .member))).rx.inbox.length < 2
          ∧ decision (full (arrived (inGroup .member))) = some .failure
          ∧ decision (full (arrived (inState .listening))) = none)
      ∧ ∀ st ∈ [StationState.offline, .listening, .founding, .holdoff],
          (spoiled (inState st)).ctrl.station = st
            ∧ (spoiled (inState st)).rx.assembly.isSome = true := by
  decide +kernel

/-- Each item that can stand before an opening. -/
theorem test_hyp_WindowOpeningsAnswered_behind_items :
    ∀ x ∈ [StreamItem.char (plain 3 .dominant), .truncation, .lineBreak, .result true],
      (withStream [x, .opening] State.reset).line.stream = x :: [.opening]
        ∧ x ≠ .opening ∧ StreamItem.opening ∈ [StreamItem.opening] := by
  decide

/-- The eighth failure veto empties the inbox, and the frame is then left PROVISIONAL in it (R87). -/
theorem test_eighth_veto_leaves_the_frame :
    (let held : InboxFrame :=
        { frame := frameOf .presence 6 154 500 [], accepted := true, ownVeto := false };
      match exec .windowOpening ((spoiled (inGroup .member)).mapRx fun r =>
          { r with ownVetoes := 7, inbox := [held, held] }) with
      | .next t => decide (t.rx.inbox.map (fun f => (f.accepted, f.ownVeto)) = [(false, true)])
          && decide (t.ctrl.lastDetach = some .vetoLimit ∧ t.rx.ownVetoes = 0)
      | _ => false) = true := by
  decide +kernel

/-- A frame whose last two characters stand before its opening is placed whole. -/
theorem test_opening_behind_characters :
    (let chars := frameChars .presence 6 154 500 [];
      let tail := (chars.drop 6).map fun v => StreamItem.char (plain v .dominant);
      match exec .windowOpening (withStream (tail ++ [.opening])
          (assembling (chars.take 6) (inGroup .member))) with
      | .next t => decide (t.rx.inbox.map InboxFrame.frame = [frameOf .presence 6 154 500 []])
          && decide (t.rx.ownVetoes = 0 ∧ t.line.stream = [])
      | _ => false) = true := by
  decide +kernel

def presenceOf (sender : Station) (tag : Byte) (tseq : Tseq) : Frame :=
  frameOf .presence sender tag tseq []

theorem test_hyp_WindowResultTaken :
    let provisional (flag : Bool) (kind : FrameKind) : State :=
      withStream [.result true] { inGroup .member with rx := { Receiver.reset with
        inbox := [{ frame := frameOf kind 6 154 500 [], accepted := false, ownVeto := flag }] } };
    (provisional false .presence).line.stream = .result true :: []
      ∧ (withStream [.result false] State.reset).rx.inbox = []
      ∧ (withInbox (presenceOf 6 154 500) true State.reset).rx.inbox
        = [] ++ [{ frame := presenceOf 6 154 500, accepted := true, ownVeto := true }]
      ∧ (provisional false .presence).rx.inbox
        = [] ++ [{ frame := presenceOf 6 154 500, accepted := false, ownVeto := false }]
      ∧ (presenceOf 6 154 500).isSequenced = false ∧ (frameOf .leave 6 154 500 []).isSequenced = true
      ∧ (provisional true .leave).ctrl.station.inGroup = true
      ∧ (inState .asking).ctrl.station.inGroup = false := by
  decide

/-- Station 6 listed for eviction, with its EVICT in hand. -/
def evicting (phase : EvictPhase) (s : State) : State :=
  s.mapCtrl fun c => { c with evictions := [6], evictInHand := some ⟨6, phase⟩ }

theorem test_hyp_HandoffChecksAndTableEngine :
    (let s := withInbox (presenceOf 6 155 500) false (inGroup .member);
      s.rx.handoff = none
        ∧ s.rx.inbox = { frame := presenceOf 6 155 500, accepted := true, ownVeto := false } :: []
        ∧ (presenceOf 6 155 500).known ≠ none ∧ s.table.tag < (presenceOf 6 155 500).tag
        ∧ (presenceOf 6 153 500).tag < s.table.tag ∧ s.ctrl.station.inGroup = true)
      ∧ (inState .holdoff).ctrl.station = .holdoff
      ∧ ({ presenceOf 6 154 500 with kind := 0x21 } : Frame).known = none
      ∧ ({ presenceOf 6 154 500 with sender := 0x20 } : Frame).known = none
      ∧ (let f := frameOf .leave 6 154 500 [];
        let s := withInbox f false (inGroup .leaving);
        s.ctrl.station = .leaving ∧ f.known = some (.leave, 6) ∧ FrameKind.leave.sequenced = true
          ∧ f.tag = s.table.tag ∧ 6 ∈ s.table.roster ∧ f.tseq = s.expectedTseq
          ∧ s.ctrl.silence[(6 : Station)] = some (.running 0))
      ∧ (let f := frameOf .leave 9 154 500 [];
        let s := withInbox f false (inGroup .member);
        f.known = some (.leave, 9) ∧ 9 ∉ s.table.roster ∧ s.ctrl.silence[(9 : Station)] = none)
      ∧ (let s := queueOf (claims 1 ++ .fresh .evict .controller [6] :: [])
          (withInbox (presenceOf 6 154 500) false (evicting .queued (inGroup .leaving)));
        (presenceOf 6 154 500).tseq = s.expectedTseq
          ∧ s.ctrl.silence[(6 : Station)] = some (.running 0) ∧ 6 ∈ s.ctrl.evictions
          ∧ s.ctrl.evictInHand = some ⟨6, .queued⟩
          ∧ s.tx.queue = claims 1 ++ .fresh .evict .controller [6] :: []
          ∧ ∀ x ∈ claims 1, x.kind ≠ .evict)
      ∧ (let f := frameOf .announce 3 154 0 [1, 3];
        f.known = some (.announce, 3) ∧ FrameKind.announce ≠ .joinAsk)
      ∧ (let s := withInbox (frameOf .leave 6 154 500 []) false (inGroup .member);
        FrameKind.leave ≠ .joinAsk ∧ s.ctrl.station ≠ .catchup
          ∧ (frameOf .leave 6 154 500 []).tseq = s.expectedTseq) := by
  decide

/-- A PRESENCE of an unlisted member, with and without a line fault; an ANNOUNCE and a PRESENCE of a
station without a timer; and a SNAPSHOT in MEMBER. -/
theorem test_hyp_HandoffChecksAndTableEngine_ordinary :
    (let f := presenceOf 6 154 500;
      let s := withInbox f false (inGroup .member);
      s.rx.handoff = none ∧ s.ctrl.station.inGroup = true ∧ f.known = some (.presence, 6)
        ∧ f.tag = s.table.tag ∧ f.tseq = s.expectedTseq ∧ 6 ∉ s.ctrl.evictions
        ∧ s.ctrl.silence[(6 : Station)] = some (.running 0) ∧ s.ctrl.lineFault = false
        ∧ (s.mapCtrl fun c => { c with lineFault := true }).ctrl.lineFault = true)
      ∧ (frameOf .announce 9 154 0 [1, 3]).known = some (.announce, 9)
      ∧ (presenceOf 9 154 0).known = some (.presence, 9) ∧ 9 ∉ (inGroup .member).table.roster
      ∧ (inGroup .member).ctrl.silence[(9 : Station)] = none
      ∧ (frameOf .snapshot 3 154 500 [6, 1, 4, 0, 0, 1]).known = some (.snapshot, 3)
      ∧ (inGroup .member).ctrl.station ≠ .catchup := by
  decide

/-- Listed senders of a JOIN-ASK in MEMBER, and of a sequenced frame and an own-tag SNAPSHOT in CATCHUP
after install. -/
theorem test_hyp_HandoffChecksAndTableEngine_listed :
    (let s := evicting .queued (inGroup .member);
      (frameOf .joinAsk 6 154 0 []).known = some (.joinAsk, 6) ∧ 6 ∈ s.ctrl.evictions
        ∧ s.ctrl.silence[(6 : Station)] = some (.running 0)
        ∧ (queueOf ([] ++ .fresh .evict .controller [6] :: claims 1) s).tx.queue
          = [] ++ .fresh .evict .controller [6] :: claims 1)
      ∧ (let f := frameOf .leave 6 154 500 [];
        let s := withInbox f false (evicting .owed (inGroup .catchup));
        s.ctrl.station = .catchup ∧ f.tseq = s.expectedTseq ∧ 6 ∈ s.ctrl.evictions
          ∧ (6 : Station) ≠ s.port.station ∧ s.table.condition ≠ .pending) := by
  decide

/-- A PRESENCE restarts its sender's timer at E = k x 10 P, and no other (R97, R134). -/
theorem test_presence_restarts_timer :
    (let s := withInbox (presenceOf 3 154 500) false (inGroup .member);
      match exec .handoff s with
      | .next t => decide (t.ctrl.silence[(3 : Station)]
            = some (.running (s.table.k * (s.table.p * 10))))
          && decide (t.ctrl.silence[(6 : Station)] = s.ctrl.silence[(6 : Station)])
          && decide (t.rx.inbox = [])
      | _ => false) = true := by
  decide +kernel

theorem test_hyp_HandoffSeniorityRule :
    let f := presenceOf 3 154 499;
    let s := withInbox f false (inGroup .member);
    s.rx.handoff = none ∧ s.ctrl.station.inGroup = true ∧ f.known = some (.presence, 3)
      ∧ f.tag = s.table.tag ∧ 3 ∈ s.table.roster ∧ (3 : Station) ≠ s.port.station
      ∧ f.tseq ≠ s.expectedTseq ∧ s.port.station ∈ s.table.roster
      ∧ s.table.roster.idxOf 3 < s.table.roster.idxOf s.port.station
      ∧ s.table.roster.idxOf s.port.station < s.table.roster.idxOf 6
      ∧ (presenceOf 6 154 499).known = some (.presence, 6) ∧ 6 ∈ s.table.roster := by
  decide

/-- A sequenced frame and a SNAPSHOT of a junior with another TSEQ, in each state of the group. -/
theorem test_hyp_HandoffSeniorityRule_junior :
    let leave := frameOf .leave 6 154 499 [];
    let part := frameOf .snapshot 6 154 499 [0, 1, 4, 0, 0, 1];
    leave.known = some (.leave, 6) ∧ FrameKind.leave.sequenced = true
      ∧ part.known = some (.snapshot, 6) ∧ (inGroup .member).ctrl.station ≠ .catchup
      ∧ (inGroup .leaving).ctrl.station = .leaving
      ∧ (inGroup .catchup).table.condition = .present ∧ (inGroup .catchup).ctrl.failed = false
      ∧ (let s := (inGroup .catchup).mapCtrl fun c =>
          { c with pendingApply := List.replicate 15 leave };
        s.ctrl.pendingApply.length < 16 ∧ leave.tseq ≠ s.expectedTseq) := by
  decide

/-- LISTENING with no tag, a higher, an equal and a lower one heard. -/
theorem test_hyp_HandoffWithoutAReplica_listening :
    let f := frameOf .announce 6 154 0 [1, 3];
    let s := withInbox f false (inState .listening);
    s.rx.handoff = none ∧ s.ctrl.station = .listening ∧ f.known = some (.announce, 6)
      ∧ s.ctrl.lowestTag = none
      ∧ (s.mapCtrl fun c => { c with lowestTag := some 155 }).ctrl.lowestTag = some 155
      ∧ f.tag < 155 ∧ (153 : Byte) < f.tag := by
  decide

theorem test_hyp_HandoffWithoutAReplica_founding_asking :
    (let f := frameOf .announce 0 154 0 [1, 3];
      let s := withInbox f false (inState .founding);
      s.ctrl.station = .founding ∧ f.known = some (.announce, s.port.station)
        ∧ s.table.condition = .absent)
      ∧ (let f := frameOf .announce 31 154 0 [1, 3];
        f.known = some (.announce, 31) ∧ (31 : Station) ≠ (inState .founding).port.station)
      ∧ (let f := frameOf .admission 3 154 0xFFFF [0];
        let s := withInbox f false ((inState .asking).mapCtrl fun c => { c with askedTag := 154 });
        s.ctrl.station = .asking ∧ f.known = some (.admission, 3) ∧ f.tag = s.ctrl.askedTag
          ∧ f.body = byteOf s.port.station.val :: [] ∧ s.table = .absent)
      ∧ (let s := (inState .asking).mapCtrl fun c => { c with askedTag := 155 };
        (3 : Station) ≠ s.port.station ∧ (presenceOf 3 154 0).tag < s.ctrl.askedTag) := by
  decide +kernel

/-- SNAPSHOTs with and without a part; own frames of every kind but the own ADMIT's; equal and higher
tags, with and without parameters. -/
theorem test_hyp_HandoffWithoutAReplica_widened :
    let short := frameOf .snapshot 6 154 500 [0, 1, 4, 0, 0];
    let part := frameOf .snapshot 6 154 500 [0, 1, 4, 0, 0, 1];
    let own := frameOf .presence 0 154 500 [];
    let bare := frameOf .announce 6 154 0 [];
    let full := frameOf .announce 6 154 0 [1, 3];
    let asking (tag : Byte) : State := (inState .asking).mapCtrl fun c => { c with askedTag := tag };
    short.known = some (.snapshot, 6) ∧ short.body.length < 6
      ∧ part.known = some (.snapshot, 6) ∧ 6 ≤ part.body.length
      ∧ own.known = some (.presence, (inState .founding).port.station)
      ∧ bare.known = some (.announce, 6) ∧ announceParameters bare.body = none
      ∧ announceParameters full.body = some (1, 3)
      ∧ (6 : Station) ≠ (asking 154).port.station ∧ bare.tag = (asking 154).ctrl.askedTag
      ∧ (asking 153).ctrl.askedTag < bare.tag ∧ bare.tag < (asking 155).ctrl.askedTag
      ∧ (frameOf .admission 0 154 500 [0]).known = some (.admission, (asking 154).port.station)
      ∧ (frameOf .admission 6 154 500 [9]).body.head? ≠ some (byteOf (asking 154).port.station.val)
      ∧ (asking 154).table = .absent := by
  decide +kernel

/-- An ASKING station with one JOIN-ASK in flight and another READY behind it. -/
def askingTwice : State :=
  let asks := [inFlight (.fresh .joinAsk .controller []), .fresh .joinAsk .controller []];
  withInbox (frameOf .admission 3 154 500 [0]) false
    (queueOf asks ((inState .asking).mapCtrl fun c => { c with askedTag := 154 }))

theorem test_hyp_HandoffWithoutAReplica_queued :
    askingTwice.rx.handoff = none ∧ askingTwice.ctrl.station = .asking ∧ askingTwice.table = .absent
      ∧ inFlight (.fresh .joinAsk .controller []) ∈ askingTwice.tx.queue
      ∧ (inFlight (.fresh .joinAsk .controller [])).state = .active
      ∧ (inState .founding).ctrl.owed.announce = false
      ∧ (inFlight (.fresh .announce .controller [])).state = .active := by
  decide

/-- The admission withdraws both: the one in flight is marked, the READY one is gone (R116). -/
theorem test_admission_withdraws_every_ask :
    (match exec .handoff { askingTwice with
        ctrl := { askingTwice.ctrl with owed := { Owed.none with joinAsk := true } } } with
      | .next t => decide (t.ctrl.station = .catchup ∧ t.ctrl.owed.joinAsk = false)
          && decide (t.tx.queue.map (fun e => (e.kind, e.cancel)) = [(.joinAsk, true)])
      | _ => false) = true := by
  decide +kernel

/-- A station in catch-up before install, admitted by station 3, with a pending-apply queue. -/
def joining (q : List Frame) : State :=
  { inState .catchup with
    table := { Replica.absent with condition := .pending, tag := 154, roster := [0], tseq := 500 },
    ctrl := { Controller.reset with
      station := .catchup, donorStation := some 3, pendingApply := q,
      catchupCount := BitVec.ofNat 16 q.length } }

/-- Placing after install with 15 and 16 frames queued and after a failure, for a station outside the
roster, a roster member and the own station. -/
theorem test_hyp_HandoffToController_installed :
    let f := frameOf .leave 9 154 500 [];
    let s (n : Nat) := withInbox f false ((inGroup .catchup).mapCtrl fun c =>
      { c with pendingApply := List.replicate n f, catchupCount := BitVec.ofNat 16 n });
    (s 15).ctrl.station = .catchup ∧ (s 15).table.condition = .present
      ∧ f.known = some (.leave, 9) ∧ FrameKind.leave.sequenced = true ∧ f.tag = (s 15).table.tag
      ∧ (s 15).ctrl.silence[(9 : Station)] = none ∧ 9 ∉ (s 15).table.roster
      ∧ (s 15).ctrl.failed = false ∧ (s 15).ctrl.pendingApply.length < 16
      ∧ 16 ≤ (s 16).ctrl.pendingApply.length ∧ (9 : Station) ≠ (s 15).port.station
      ∧ ((s 0).mapCtrl fun c => { c with failed := true }).ctrl.failed = true
      ∧ (frameOf .leave 6 154 515 []).known = some (.leave, 6)
      ∧ (frameOf .leave 6 154 515 []).tseq = (s 15).expectedTseq
      ∧ (frameOf .leave 0 154 0 []).known = some (.leave, (s 0).port.station) := by
  decide

/-- Placing before install, where nobody but the own station is in the roster; the donor removed by
another's EVICT and by its own LEAVE. -/
theorem test_hyp_HandoffToController_before_install :
    let evict := frameOf .evict 6 154 500 [3];
    let leave := frameOf .leave 3 154 501 [];
    let s := withInbox evict false (joining []);
    s.ctrl.station = .catchup ∧ s.table.condition ≠ .present ∧ s.ctrl.failed = false
      ∧ s.ctrl.donorStation = some 3 ∧ evict.tag = s.table.tag ∧ 6 ∉ s.table.roster
      ∧ evict.known = some (.evict, 6) ∧ evict.body.head? = some (byteOf (3 : Station).val)
      ∧ leave.known = some (.leave, 3) ∧ 3 ∉ s.table.roster
      ∧ (frameOf .evict 6 154 500 [9]).body.head? ≠ some (byteOf (3 : Station).val)
      ∧ (6 : Station) ≠ 3 := by
  decide

/-- Asks that are ignored: in LEAVING and CATCHUP, at a member that is not the head, of a roster member,
of a listed station, and with 4 listed; and asks that are listed, in each donor phase. -/
theorem test_hyp_HandoffToController_joinAsk :
    let f := frameOf .joinAsk 9 154 0 [];
    let head (st : StationState) : State :=
      withInbox f false { inGroup st with table := { replica with roster := [0, 3, 6] } };
    let asked (xs : List Station) (donor : DonorPhase) : State :=
      (head .member).mapCtrl fun c => { c with joinAsks := xs, donor := donor };
    f.known = some (.joinAsk, 9) ∧ f.tag = (head .member).table.tag
      ∧ (head .member).ctrl.silence[(9 : Station)] = none
      ∧ (head .leaving).ctrl.station.inGroup = true ∧ (head .leaving).ctrl.station ≠ .member
      ∧ (head .catchup).ctrl.station ≠ .member
      ∧ (inGroup .member).table.roster.head? ≠ some (inGroup .member).port.station
      ∧ (frameOf .joinAsk 6 154 0 []).known = some (.joinAsk, 6)
      ∧ 6 ∈ (head .member).table.roster ∧ 6 ∉ (head .member).ctrl.evictions
      ∧ 9 ∈ (asked [9] (.admitting 9)).ctrl.joinAsks
      ∧ 4 ≤ (asked [12, 13, 14, 15] (.donating 12)).ctrl.joinAsks.length
      ∧ (head .member).table.roster.head? = some (head .member).port.station
      ∧ 9 ∉ (head .member).table.roster ∧ 9 ∉ (asked [12, 13, 14] (.donating 12)).ctrl.joinAsks
      ∧ (asked [12, 13, 14] (.donating 12)).ctrl.joinAsks.length < 4
      ∧ (asked [12, 13, 14] (.donating 12)).ctrl.donor ≠ .none
      ∧ (asked [] .none).ctrl.donor = .none ∧ (asked [] .none).ctrl.joinAsks ++ [9] = 9 :: []
      ∧ (asked [12] .none).ctrl.joinAsks ++ [9] = 12 :: [9] := by
  decide

/-- A part of the image for the own station: part `p` of `c` with `n` octets. -/
def partOf (p c : Byte) (n : Nat) : Frame :=
  frameOf .snapshot 3 154 500 ([0, p, c, 0xF4, 1] ++ List.replicate n 0)

/-- The first part of 4, one with a wrong number, and a last part behind three whose image is refused. -/
theorem test_hyp_PartsTakenAndInstalled :
    (let s := withInbox (partOf 1 4 19) false (joining []);
      s.rx.handoff = none ∧ s.ctrl.station = .catchup ∧ s.table.condition = .pending
        ∧ s.ctrl.failed = false ∧ (partOf 1 4 19).known = some (.snapshot, 3)
        ∧ s.ctrl.donorStation = some 3
        ∧ (partOf 1 4 19).body = byteOf s.port.station.val :: 1 :: 4 :: 0xF4 :: 1
            :: List.replicate 19 0
        ∧ (partOf 1 4 19).tag = s.table.tag ∧ 3 ∉ s.table.roster
        ∧ s.ctrl.silence[(3 : Station)] = none
        ∧ (1 : Byte).toNat = s.ctrl.snapshot.part + 1 ∧ s.ctrl.snapshot.part = 0
        ∧ (1 : Byte) ≠ 4 ∧ ¬ ((2 : Byte).toNat = s.ctrl.snapshot.part + 1))
      ∧ (let s := (joining []).mapCtrl fun c => { c with snapshot :=
            { image := List.replicate 57 0, tseq := 500, partCount := 4, part := 3 } };
        (4 : Byte).toNat = s.ctrl.snapshot.part + 1 ∧ (4 : Byte).toNat = s.ctrl.snapshot.partCount
          ∧ s.table.install s.port.station (s.ctrl.snapshot.image ++ [0]) 500 = none) := by
  decide +kernel

/-! ## Table engine -/

theorem test_hyp_ApplicationWhole :
    (let f := frameOf .drop 6 154 500 [1, 2];
      let s : State := { inGroup .member with rx := { Receiver.reset with handoff := some f } };
      s.rx.handoff = some f ∧ s.table.condition = .present ∧ f.known = some (.drop, 6)
        ∧ FrameKind.drop.sequenced = true)
      ∧ (let f := frameOf .evict 3 154 500 [0];
        f.known = some (.evict, 3) ∧ f.body = 0 :: []
          ∧ (0 : Byte).toNat = (inGroup .member).port.station.val)
      ∧ (frameOf .leave 0 154 500 []).known = some (.leave, (inGroup .member).port.station) := by
  decide

/-- Records in each state, with the report that each clause names. -/
theorem test_hyp_ApplicationReachesTheRecords :
    (let f := frameOf .drop 6 154 500 [1, 2];
      let s : State := { inGroup .member with rx := { Receiver.reset with handoff := some f } };
      s.rx.handoff = some f ∧ s.table.condition = .present)
      ∧ (31 : Byte).toNat = (31 : RecordIndex).val
      ∧ (let s := withRecord 31 .queued .none (inGroup .member);
        (0 : Byte).toNat = s.records[(31 : RecordIndex)].resource.val
          ∧ (1 : Byte).toNat ≠ s.records[(31 : RecordIndex)].resource.val
          ∧ s.records[(31 : RecordIndex)].state = .queued
          ∧ s.records[(31 : RecordIndex)].cancelOwed = none
          ∧ (s.mapRecord 31 fun r => { r with cancelOwed := some .withdrawn }).records[
              (31 : RecordIndex)].cancelOwed = some .withdrawn)
      ∧ (withRecord 31 .waiting .none (inGroup .member)).records[(31 : RecordIndex)].state = .waiting
      ∧ (withRecord 31 .granted .none (inGroup .member)).records[(31 : RecordIndex)].state = .granted
      ∧ (let s := (withRecord 31 .dropping .none (inGroup .leaving)).mapRecord 31 fun r =>
          { r with dropReason := some .released };
        s.records[(31 : RecordIndex)].state = .dropping
          ∧ s.records[(31 : RecordIndex)].dropReason = some .released)
      ∧ (inGroup .member).records[(31 : RecordIndex)].state = .free := by
  decide +kernel

/-- A listed and an unlisted station removed, with and without a donation to it, and the own ADMIT in
each donor phase; an ACTIVE part of the donation. -/
theorem test_hyp_ApplicationReachesTheController :
    let donor (phase : DonorPhase) (s : State) : State :=
      s.mapCtrl fun c => { c with donor := phase, joinAsks := [6, 9] };
    6 ∈ (evicting .queued (inGroup .member)).ctrl.evictions
      ∧ 3 ∉ (evicting .queued (inGroup .member)).ctrl.evictions
      ∧ (donor (.admitting 6) (inGroup .member)).ctrl.donor = .admitting 6
      ∧ (donor (.donating 6) (inGroup .leaving)).ctrl.donor = .donating 6
      ∧ (∀ j, (inGroup .member).ctrl.donor ≠ .admitting j)
      ∧ inFlight (.fresh .snapshot .controller [6, 1])
          ∈ (queueOf [inFlight (.fresh .snapshot .controller [6, 1])]
              (donor (.donating 6) (inGroup .member))).tx.queue
      ∧ (inFlight (.fresh .snapshot .controller [6, 1])).state = .active
      ∧ (inGroup .catchup).CanDetach := by
  decide

def shared (k : RecordIndex) (granted : Bool) : Entry :=
  { station := 6, record := k, mode := .shared, granted := granted }

/-- Limits at the ends of the range, a full replica, and each refusal. -/
theorem test_hyp_ClaimApplied :
    let limited (n : Nat) (q : List Entry) : Replica :=
      { replica with limits := replica.limits.set 63 n, queues := replica.queues.set 63 q };
    let one := limited 1 [shared 0 true];
    QueueGranted one.limits[(63 : Resource)] one.queues[(63 : Resource)]
      ∧ one.holds 6 31 = false ∧ one.holds 6 0 = true ∧ one.entriesUsed < 128
      ∧ (0 : Byte).getLsbD 1 = false
      ∧ grantOnInsertion 1 one.queues[(63 : Resource)] .shared = false
      ∧ (2 : Byte).getLsbD 1 = true
      ∧ grantOnInsertion 16 (limited 16 [shared 0 true]).queues[(63 : Resource)] .shared = true
      ∧ ¬ (1 ≤ (limited 0 []).limits[(63 : Resource)])
      ∧ 128 ≤ (limited 16 (List.replicate 128 (shared 0 true))).entriesUsed
      ∧ (let full := limited 16 (List.replicate 128 (shared 0 true));
        128 ≤ (full.queues.toList.map List.length).sum ∧ full.holds 6 31 = false)
      ∧ (one.queues.toList.map List.length).sum < 128
      ∧ (limited 16 [shared 0 true]).holds 6 31 = false
      ∧ (let f := frameOf .claim 6 154 500 [63, 31, 2, 9];
        f.known = some (.claim, 6) ∧ f.body = 63 :: 31 :: 2 :: [9]
          ∧ (63 : Resource).val = (63 : Byte).toNat ∧ (31 : RecordIndex).val = (31 : Byte).toNat
          ∧ 63 < (64 : Byte).toNat ∧ 31 < (32 : Byte).toNat
          ∧ (frameOf .claim 6 154 500 [63, 31]).body.length < 3)
      ∧ 1 ≤ (limited 16 []).limits[(63 : Resource)] ∧ (limited 16 []).limits[(63 : Resource)] ≤ 16 := by
  decide +kernel

/-- A DROP that finds an entry, one that finds none, a short one and one of a resource and a record out
of range; removals of a member, of a station outside the roster and of the own station; and ADMITs for
a roster of fewer than 32 and of 32. -/
theorem test_hyp_DropAndMembershipApplied :
    let drop := frameOf .drop 6 154 500 [63, 31];
    let evict := frameOf .evict 3 154 500 [6];
    drop.known = some (.drop, 6) ∧ drop.body = 63 :: 31 :: [] ∧ 63 < (64 : Byte).toNat
      ∧ 31 < (32 : Byte).toNat ∧ (frameOf .drop 6 154 500 [63]).body.length < 2
      ∧ (∃ e ∈ ({ replica with queues := replica.queues.set 63 [shared 31 true] } : Replica).queues[
        (63 : Resource)], e.station = 6 ∧ e.record = 31)
      ∧ (∀ e ∈ replica.queues[(63 : Resource)], e.station = 6 → e.record ≠ 31)
      ∧ (frameOf .leave 6 154 500 []).known = some (.leave, 6)
      ∧ evict.known = some (.evict, 3) ∧ evict.body = byteOf (6 : Station).val :: []
      ∧ (31 : Station).val = (31 : Byte).toNat
      ∧ (6 : Station) ≠ 0 ∧ 6 ∈ replica.roster ∧ (31 : Station) ∉ replica.roster
      ∧ (frameOf .admission 3 154 500 [31]).known = some (.admission, 3)
      ∧ replica.roster.length < 32
      ∧ 32 ≤ ({ replica with roster := List.finRange 32 } : Replica).roster.length := by
  decide +kernel

/-- The removal of station 6 promotes the own WAITING entries of every queue, by ascending resource. -/
theorem test_removal_promotes :
    (let mine (k : RecordIndex) : Entry := { shared k false with station := 0 };
      let head : Entry := { shared 0 true with mode := .exclusive };
      let t : Replica :=
        { replica with limits := (replica.limits.set 1 2).set 63 1,
                       queues := (replica.queues.set 1 [head, mine 4, mine 2]).set 63
                         [{ head with record := 1 }, mine 7, mine 8] };
      (t.apply 0 (frameOf .evict 3 154 500 [6])).2
        = [.memberRemoved 6 .evicted, .claim 1 4 .promoted, .claim 1 2 .promoted,
            .claim 63 7 .promoted]) := by
  decide +kernel

theorem test_hyp_GrantRule :
    QueueGranted 2 [shared 0 true, shared 1 true, shared 2 false]
      ∧ QueueGranted 1 [{ shared 0 true with mode := .exclusive }, shared 1 false]
      ∧ [shared 0 true, shared 1 true, shared 2 false]
        = [shared 0 true] ++ shared 1 true :: [shared 2 false] := by
  decide

/-! ## Reports, replay and timers -/

theorem test_hyp_ClaimUnitAndWithdrawnReports :
    (let s : State := { withRecord 31 .queued .claim (inGroup .member) with
        tx := { Transmitter.empty with
          reports := [.accepted .presence .controller] ++ .accepted .claim (.claimUnit 31) :: [] } };
      s.tx.reports = [.accepted .presence .controller] ++ .accepted .claim (.claimUnit 31) :: []
        ∧ ∀ x ∈ [TxReport.accepted .presence .controller], x.path = .controller)
      ∧ (let s := (withRecord 31 .queued .claim (inGroup .member)).mapRecord 31 fun r =>
          { r with cancelOwed := some .timedOut };
        s.records[(31 : RecordIndex)].state = .queued ∧ s.records[(31 : RecordIndex)].mark = .claim
          ∧ s.records[(31 : RecordIndex)].cancelOwed = some .timedOut)
      ∧ (let s := (inGroup .member).mapCtrl fun c => { c with evictInHand := some ⟨6, .queued⟩ };
        s.ctrl.evictInHand = some ⟨6, .queued⟩)
      ∧ (TxReport.withdrawn .evict .controller).path = .controller
      ∧ (let s : State := { inState .asking with
          tx := { Transmitter.empty with
            reports := [.withdrawn .claim (.claimUnit 0)] ++ .withdrawn .announce .controller :: [] } };
        s.tx.reports = [.withdrawn .claim (.claimUnit 0)] ++ .withdrawn .announce .controller :: []
          ∧ ∀ x ∈ [TxReport.withdrawn .claim (.claimUnit 0)], x.path = .claimUnit)
      ∧ (let s : State := { inState .catchup with
          tx := { Transmitter.empty with reports := [.withdrawn .joinAsk .controller] } };
        s.tx.reports = [] ++ .withdrawn .joinAsk .controller :: []) := by
  decide +kernel

theorem test_hyp_AcceptedReportToController :
    let s (st : StationState) (kind : FrameKind) : State :=
      { inGroup st with tx := { Transmitter.empty with reports := [.accepted kind .controller] } };
    (s .member .presence).tx.reports = [] ++ .accepted .presence .controller :: []
      ∧ (s .member .announce).ctrl.station.inGroup = true
      ∧ (s .catchup .joinAsk).ctrl.station.inGroup = true
      ∧ (inState .founding).ctrl.station = .founding ∧ (inState .founding).table.condition = .absent
      ∧ (inState .asking).ctrl.station = .asking ∧ (s .member .admission).ctrl.station.inGroup = true
      ∧ (s .leaving .leave).ctrl.station = .leaving
      ∧ ((s .member .evict).mapCtrl fun c => { c with evictInHand := some ⟨6, .queued⟩ }).ctrl.evictInHand
        = some ⟨6, .queued⟩ := by
  decide

/-- A part before the last and the last part of a donation, an ended donation, and the LEAVE of a
catch-up that has and has not failed. -/
theorem test_hyp_AcceptedReportToController_donation :
    let s (part : Nat) : State := (inGroup .member).mapCtrl fun c =>
      { c with donor := .donating 6, joinAsks := [6],
               snapshot := { Snapshot.empty with partCount := 26, part := part } };
    (s 25).ctrl.donor = .donating 6 ∧ (s 25).ctrl.station.inGroup = true
      ∧ (s 25).ctrl.snapshot.part < (s 25).ctrl.snapshot.partCount
      ∧ (s 26).ctrl.snapshot.partCount ≤ (s 26).ctrl.snapshot.part
      ∧ (∀ j, (inGroup .member).ctrl.donor ≠ .donating j)
      ∧ (inGroup .catchup).ctrl.station = .catchup ∧ (inGroup .catchup).ctrl.failed = false
      ∧ ((inGroup .catchup).mapCtrl fun c => { c with failed := true }).ctrl.failed = true := by
  decide

/-- A donation to station 6 with part 1 in flight, which the removal of the joiner cancels, and stations 9
and 6 listed. -/
def donating : State :=
  queueOf [inFlight (.fresh .snapshot .controller [6, 1])] ((inGroup .member).mapCtrl fun c =>
    { c with donor := .donating 6, joinAsks := [6, 9],
             snapshot := { Snapshot.empty with partCount := 4, part := 1 } })

/-- The next donation, to station 9, with the report for that part still to be taken. -/
def donatingNext (report : TxReport) : State :=
  { donating.mapCtrl fun c => { c with donor := .donating 9, staleParts := 1 } with
    tx := { Transmitter.empty with reports := [report] } }

theorem test_hyp_AcceptedReportToController_stale :
    (donatingNext (.accepted .snapshot .controller)).tx.reports
        = [] ++ .accepted .snapshot .controller :: []
      ∧ 0 < (donatingNext (.accepted .snapshot .controller)).ctrl.staleParts
      ∧ (donatingNext (.withdrawn .snapshot .controller)).tx.reports
        = [] ++ .withdrawn .snapshot .controller :: []
      ∧ donating.ctrl.staleParts = 0 ∧ donating.ctrl.donor = .donating 6
      ∧ inFlight (.fresh .snapshot .controller [6, 1]) ∈ donating.tx.queue := by
  decide

/-- The end of the donation counts the part in flight, and the report for it moves no part of the next
donation (R121). -/
theorem test_late_part_report_has_no_effect :
    (donating.takeTableReport (.memberRemoved 6 .evicted)).ctrl.staleParts = 1
      ∧ (match exec (.acceptedReport .controller) (donatingNext (.accepted .snapshot .controller)) with
        | .next t => decide (t.ctrl.snapshot.part = 1 ∧ t.ctrl.staleParts = 0)
            && decide (t.ctrl.donor = .donating 9)
        | _ => false) = true := by
  decide +kernel

theorem test_hyp_ReplayStepTaken :
    let f := frameOf .leave 9 154 500 [];
    let g := frameOf .leave 6 154 499 [];
    let s (q : List Frame) : State := (inGroup .catchup).mapCtrl fun c =>
      { c with pendingApply := q, catchupCount := BitVec.ofNat 16 q.length };
    (s [f, g]).ctrl.station = .catchup ∧ (s [f, g]).table.condition = .present
      ∧ (s [f, g]).ctrl.failed = false ∧ (s [f, g]).ctrl.pendingApply = f :: [g]
      ∧ f.known = some (.leave, 9) ∧ 9 ∉ (s [f, g]).table.roster ∧ [g] ≠ []
      ∧ (s [f]).ctrl.pendingApply = f :: [] ∧ g.known = some (.leave, 6)
      ∧ 6 ∈ (s [g]).table.roster ∧ g.tseq ≠ (s [g]).table.tseq
      ∧ (s [f]).ctrl.configDiffers = false
      ∧ ((s [f]).mapCtrl fun c => { c with configDiffers := true }).ctrl.configDiffers = true := by
  decide

/-- A member's frame that the replay applies, with a frame behind it and without; the own LEAVE, and an
EVICT that names the own station. -/
theorem test_hyp_ReplayStepTaken_applied :
    let claim := frameOf .claim 6 154 500 [63, 31, 3];
    let evict := frameOf .evict 6 154 500 [0];
    let s := inGroup .catchup;
    claim.known = some (.claim, 6) ∧ 6 ∈ s.table.roster ∧ claim.tseq = s.table.tseq
      ∧ FrameKind.claim.sequenced = true ∧ ¬ (FrameKind.claim = .leave ∧ (6 : Station) = s.port.station)
      ∧ FrameKind.claim ≠ .evict ∧ [claim] ≠ []
      ∧ (frameOf .leave 0 154 500 []).known = some (.leave, s.port.station)
      ∧ 0 ∈ s.table.roster ∧ evict.known = some (.evict, 6) ∧ evict.body = 0 :: []
      ∧ (0 : Byte).toNat = s.port.station.val := by
  decide

theorem test_hyp_JoiningTimersExpire :
    (let s := (inState .listening).mapCtrl fun c => { c with listen := .running 0 };
      s.ctrl.station = .listening ∧ s.ctrl.listen = .running 0 ∧ s.ctrl.lowestTag = none)
      ∧ (let s := (inState .listening).mapCtrl fun c =>
          { c with listen := .running 0, lowestTag := some 255 };
        s.ctrl.lowestTag = some 255)
      ∧ (let s := (inState .asking).mapCtrl fun c => { c with ask := .running 0, askCount := 2 };
        s.ctrl.station = .asking ∧ s.ctrl.ask = .running 0 ∧ s.ctrl.askCount < 3)
      ∧ (let s := (inState .asking).mapCtrl fun c => { c with ask := .running 0, askCount := 3 };
        3 ≤ s.ctrl.askCount) := by
  decide

/-- ASK-FAILED with the own JOIN-ASK on the line breaks it (R80, R114). -/
theorem test_ask_failed_breaks_the_own_frame :
    let s := attempt .sending 0 .recessive
      ((inState .asking).mapCtrl fun c => { c with ask := .running 0, askCount := 3 });
    (match exec .askTimerExpiry s with
      | .next t => decide (t.line = s.lineFlushed) && decide (t.line.state = .breaking)
          && decide (t.ctrl.station = .holdoff) && decide (t.ctrl.askCount = 0)
      | _ => false) = true := by
  decide

theorem test_hyp_ControllerTimersExpire :
    (let s := (inGroup .catchup).mapCtrl fun c => { c with stall := .running 0 };
      s.ctrl.station = .catchup ∧ s.ctrl.stall = .running 0 ∧ s.ctrl.failed = false
        ∧ (s.mapCtrl fun c => { c with failed := true }).ctrl.failed = true)
      ∧ (let s := (inState .holdoff).mapCtrl fun c => { c with holdoff := .running 0 };
        s.ctrl.station = .holdoff ∧ s.ctrl.holdoff = .running 0)
      ∧ (let s := (inGroup .leaving).mapCtrl fun c => { c with presence := .running 0 };
        s.ctrl.station.inGroup = true ∧ s.ctrl.presence = .running 0)
      ∧ (inGroup .member).ctrl.silence[(6 : Station)] = some (.running 0)
      ∧ (inGroup .member).ctrl.evictInHand = none
      ∧ ((inGroup .member).mapCtrl fun c => { c with evictInHand := some ⟨3, .owed⟩ }).ctrl.evictInHand
        = some ⟨3, .owed⟩ := by
  decide

theorem test_hyp_WaitTimerExpires :
    let expired (s : State) : State := s.mapRecord 2 fun r => { r with waitTimer := some 0 };
    let s := queueOf (claims 3) (expired (withRecord 2 .queued .claim (inGroup .member)));
    s.records[(2 : RecordIndex)].waitTimer = some 0
      ∧ (expired (withRecord 2 .waiting .none (inGroup .member))).records[(2 : RecordIndex)].state
        = .waiting
      ∧ s.records[(2 : RecordIndex)].state = .queued ∧ s.records[(2 : RecordIndex)].cancelOwed = none
      ∧ (expired (withRecord 2 .queued .none (inGroup .member))).records[(2 : RecordIndex)].mark = .none
      ∧ s.records[(2 : RecordIndex)].mark = .claim
      ∧ (∀ e ∈ (queueOf (claims 2) s).tx.queue, e.owner ≠ .claimUnit 2)
      ∧ s.tx.queue = claims 2 ++ .fresh .claim (.claimUnit 2) [] :: []
      ∧ (∀ x ∈ claims 2 ++ [], x.owner ≠ .claimUnit 2)
      ∧ (inFlight (.fresh .claim (.claimUnit 2) [])).owner = .claimUnit 2 := by
  decide +kernel

theorem test_hyp_DetachLeavesAClearedStation :
    (inState .founding).CanDetach ∧ (inGroup .leaving).CanDetach
      ∧ (inGroup .member).line.state ≠ .contend ∧ (inGroup .member).line.state ≠ .sending
      ∧ (attempt .sending 0 .recessive (inGroup .member)).line.state = .sending
      ∧ (inGroup .member).records[(31 : RecordIndex)].state.live = false := by
  decide

/-! ## Encodings and invariants -/

theorem test_hyp_FrameReadBackWhole :
    (List.replicate 24 (0xFF : Byte)).length ≤ 24
      ∧ ∀ l ∈ [(0 : Byte), 24, 25, 0xFF],
        let a : Assembly := { chars := (List.replicate 6 l).map fun v => plain v .dominant,
                              overrun := false };
        (a.chars[5]?).map RxChar.value = some l := by
  decide

/-- A received frame with one bit changed fails its check (R42). -/
theorem test_check_fails_on_a_changed_bit :
    (let a (chars : List Byte) : Assembly :=
        { chars := chars.map fun v => plain v .dominant, overrun := false };
      let chars := frameChars .presence 6 154 500 [];
      (a chars).checkPasses = true ∧ (a (chars.set 2 155)).checkPasses = false
        ∧ (a (chars.set 7 (chars[7]?.getD 0 ^^^ 0x80))).checkPasses = false) := by
  decide +kernel

/-- An EXCLUSIVE entry of the roster's head, and one that waits behind it. -/
def donatedQueue : List Entry := [⟨3, 31, .exclusive, true⟩, ⟨0, 0, .shared, false⟩]

/-- A replica with entries, seen from the donor 0 for the joiner 6. -/
def donated : Replica := { replica with queues := replica.queues.set 63 donatedQueue }

theorem test_hyp_ImageReadBackWhole :
    donated.condition = .present ∧ donated.PresentLaw 0 ∧ (6 : Station) ∈ donated.roster
      ∧ ∀ r : Resource, ∀ e ∈ donated.queues[r], e.station ≠ 6 := by
  decide +kernel

/-- The image of `donated`: its roster 3, 0, 6 stands from character 67 on, and its two entries from
character 71 on. -/
def imageWith (changes : List (Nat × Byte)) : List Byte :=
  changes.foldl (fun image x => image.set x.1 x.2) donated.image

/-- The image broken in each condition of R29 and in its length, the record index of the second entry
made that of the first. -/
theorem test_hyp_ImageReadBackWhole_refused :
    let image := imageWith [];
    let same := imageWith [(75, 3), (76, 31)];
    image[66]? = some 3 ∧ image[67 + 3]? = some 2 ∧ image.length = 68 + 3 + 3 * 2
      ∧ (image ++ [0]).length ≠ 68 + 3 + 3 * 2 ∧ (image.take 60)[66]? = none
      ∧ (imageWith [(0, 0)])[0]? = some 0 ∧ (imageWith [(1, 16)])[1]? = some 16
      ∧ (imageWith [(65, 17)])[2 + (63 : Resource).val]? = some 17
      ∧ (imageWith [(66, 33)])[66]? = some 33 ∧ (imageWith [(69, 32)])[67 + 2]? = some 32
      ∧ (imageWith [(67, 0)])[67 + 0]? = some 0 ∧ (imageWith [(67, 0)])[67 + 1]? = some 0
      ∧ (∀ i, i < 3 → image[67 + i]? ≠ some (byteOf (9 : Station).val))
      ∧ (imageWith [(70, 129)])[67 + 3]? = some 129
      ∧ (imageWith [(71, 64)])[68 + 3 + 3 * 0]? = some 64
      ∧ (imageWith [(75, 32)])[68 + 3 + 3 * 1 + 1]? = some 32
      ∧ image[68 + 3 + 3 * 1]? = some 63 ∧ (imageWith [(65, 0)])[2 + (63 : Byte).toNat]? = some 0
      ∧ (∀ m, m < 3 → image[67 + m]? ≠ some 9) ∧ image[68 + 3 + 3 * 0 + 1]? = some 3
      ∧ same[68 + 3 + 3 * 0 + 1]? = some 3 ∧ same[68 + 3 + 3 * 1 + 1]? = some 3
      ∧ same[68 + 3 + 3 * 0 + 2]? = some 0x9F ∧ same[68 + 3 + 3 * 1 + 2]? = some 31 := by
  decide +kernel

/-- A joiner 6 installs that image, and refuses each of the broken ones, one with another TSEQ, and one
with an entry of its own (R29). -/
theorem test_broken_images_refused :
    let joiner (own : Station) (tseq : Tseq) (image : List Byte) : Bool :=
      (Replica.install own image tseq { Replica.absent with
        condition := .pending, tag := 154, roster := [own], tseq := 500 }).isSome;
    joiner 6 500 (imageWith []) = true ∧ joiner 6 501 (imageWith []) = false
      ∧ joiner 3 500 (imageWith []) = false ∧ joiner 9 500 (imageWith []) = false
      ∧ joiner 6 500 (imageWith [] ++ [0]) = false ∧ joiner 6 500 ((imageWith []).take 60) = false
      ∧ ∀ x ∈ ([[(0, 0)], [(1, 16)], [(65, 17)], [(66, 33)], [(69, 32)], [(67, 0)], [(70, 129)],
          [(71, 64)], [(75, 32)], [(65, 0)], [(75, 9)], [(75, 3), (76, 31)]]
            : List (List (Nat × Byte))), joiner 6 500 (imageWith x) = false := by
  decide +kernel

/-- SNAPSHOTs that CATCHUP ignores: not of the donor, for another joiner, without a part, after a failure
and after install. -/
theorem test_hyp_PartsTakenAndInstalled_set_aside :
    (let s := withInbox (partOf 1 4 19) false (joining []);
      s.ctrl.station = .catchup ∧ (partOf 1 4 19).tag = s.table.tag
        ∧ (frameOf .snapshot 6 154 500 (partOf 1 4 19).body).known = some (.snapshot, 6)
        ∧ s.ctrl.donorStation ≠ some 6 ∧ 6 ∉ s.table.roster
        ∧ s.ctrl.silence[(6 : Station)] = none
        ∧ (frameOf .snapshot 3 154 500 [9, 1, 4, 0, 0, 1]).body.head?
          ≠ some (byteOf s.port.station.val)
        ∧ (partOf 1 4 0).body.length < 6
        ∧ (s.mapCtrl fun c => { c with failed := true }).ctrl.failed = true)
      ∧ (let s := withInbox (frameOf .snapshot 3 154 500 [0, 1, 4, 0, 0, 1]) false (inGroup .catchup);
        s.table.condition ≠ .pending ∧ s.ctrl.silence[(3 : Station)] = some (.running 7)
          ∧ 3 ∉ s.ctrl.evictions ∧ s.expectedTseq = 500) := by
  decide +kernel

/-- The image of `donated` is installed by the joiner that its ADMIT put in the roster (R29). -/
theorem test_hyp_PartsTakenAndInstalled_install :
    let s : State := { joining [] with port := .reset 6 false false,
                                       table := { (joining []).table with roster := [6] } };
    (s.table.install s.port.station donated.image 500).map Replica.roster = some [3, 0, 6] := by
  decide +kernel

/-- A member that keeps its laws, with a full notice and a frame in flight, and the step it takes. -/
def lawful : State :=
  { attempt .sending 14 .recessive (inGroup .member) with
    table := donated, notices := { list := [fullNotice true], attn := true },
    pending := [.readStatus] }

theorem test_hyp_laws_kept_blocks :
    lawful.notices.Law ∧ lawful.tx.Law ∧ lawful.OwedLaw ∧ lawful.BoundsLaw := by
  decide +kernel

/-- A report of a start that waits with a READY entry; and owed frames that wait for a place. -/
theorem test_hyp_laws_kept_waiting :
    ({ Transmitter.empty with queue := claims 1, startReport := true } : Transmitter).Law
      ∧ (queueOf (claims 8) ((inGroup .member).mapCtrl fun c =>
          { c with owed := { c.owed with presence := true } })).OwedLaw := by
  decide +kernel

theorem test_hyp_laws_kept_group : lawful.GroupLaw ∧ lawful.SilenceLaw := by
  refine ⟨⟨by decide +kernel, by decide +kernel, ?_, ⟨rfl, ?_⟩, by decide +kernel⟩, by decide +kernel⟩
  · show donated.PresentLaw 0
    exact test_hyp_ImageReadBackWhole.2.1
  · intro f hf
    exact absurd hf (Option.not_mem_none f)

theorem test_hyp_laws_kept_step : ∃ t, step lawful = .next t := ⟨_, rfl⟩

end Sys2Proof.Tests
end

/-! The characters of a frame and their way back: the check, the layout of R35, the assembly of R85
to R87 on the characters a station sent, and the bits of a character (R34, R52). -/

namespace Sys2Proof.Machine.LineFrames

/-! ## The check (R42) -/

theorem checkBit_eq (r : BitVec 16) (b : Bool) :
    checkBit r b = if b = r.getLsbD 15 then r <<< 1 else (r <<< 1) ^^^ 0x1021 := by
  by_cases hb : b = r.getLsbD 15 <;> simp [checkBit, hb]

/-- The data bits of a character in the order the check takes them. -/
def dataBits (c : Byte) : List Bool := (List.range 8).map fun i => c.getLsbD i

theorem checkByte_eq_foldl_dataBits (r : BitVec 16) (c : Byte) :
    checkByte r c = (dataBits c).foldl checkBit r := by
  simp only [dataBits, List.foldl_map]
  rfl

theorem frameCheck_eq_foldl_checkBit (chars : List Byte) :
    frameCheck chars = (chars.flatMap dataBits).foldl checkBit 0xFFFF := by
  simp only [frameCheck, List.foldl_flatMap, ← checkByte_eq_foldl_dataBits]

/-- A check passes exactly when the two characters behind the covered ones are its halves (R89). -/
theorem checkPasses_iff {a : Assembly} {l : Byte} {n : Nat} (hl : a.length = some l)
    (hn : frameLength l - 2 = n) :
    a.checkPasses = true ↔
      (a.chars.map RxChar.value)[n]?
          = some (lowByte (frameCheck ((a.chars.map RxChar.value).take n)))
        ∧ (a.chars.map RxChar.value)[n + 1]?
          = some (highByte (frameCheck ((a.chars.map RxChar.value).take n))) := by
  simp only [Assembly.checkPasses, hl, hn, Bool.and_eq_true, decide_eq_true_eq]

theorem covered_count (l : Byte) :
    frameLength l - 2 = if l.toNat ≤ 24 then 6 + l.toNat else 6 := by
  unfold frameLength
  split <;> omega

/-! ## The layout (R35, R36) -/

/-- The characters of a frame that its check covers (R35). -/
def coveredChars (kind : FrameKind) (sender : Station) (tag : Byte) (tseq : Tseq)
    (body : List Byte) : List Byte :=
  kind.char :: byteOf sender.val :: tag :: lowByte tseq :: highByte tseq
    :: byteOf body.length :: body

section
variable (kind : FrameKind) (sender : Station) (tag : Byte) (tseq : Tseq) (body : List Byte)

theorem frameChars_eq :
    frameChars kind sender tag tseq body = coveredChars kind sender tag tseq body
      ++ [lowByte (frameCheck (coveredChars kind sender tag tseq body)),
          highByte (frameCheck (coveredChars kind sender tag tseq body))] := rfl

theorem coveredChars_length :
    (coveredChars kind sender tag tseq body).length = 6 + body.length := by
  simp only [coveredChars, List.length_cons]
  omega

theorem frameChars_length :
    (frameChars kind sender tag tseq body).length = 8 + body.length := by
  simp only [frameChars_eq, List.length_append, coveredChars_length, List.length_cons,
    List.length_nil]
  omega

end

theorem byteOf_toNat_of_le {n : Nat} (h : n ≤ 24) : (byteOf n).toNat = n := by
  simp only [byteOf, BitVec.toNat_ofNat]
  omega

theorem frameLength_byteOf {n : Nat} (h : n ≤ 24) : frameLength (byteOf n) = 8 + n := by
  simp only [frameLength, byteOf_toNat_of_le h, if_pos h]

theorem word16_halves (w : BitVec 16) : word16 (lowByte w) (highByte w) = w := by
  refine BitVec.eq_of_getLsbD_eq fun i hi => ?_
  simp only [word16, lowByte, highByte, BitVec.getLsbD_append, BitVec.getLsbD_extractLsb']
  by_cases h8 : i < 8
  · simp [h8]
  · simp [h8, show i - 8 < 8 by omega, show 8 + (i - 8) = i by omega]

theorem kindOf_char (kind : FrameKind) : kindOf kind.char = some kind := by
  cases kind <;> rfl

/-! ## The assembly of the characters sent (R85 to R87) -/

/-- Characters that were received without a mark, as an assembled frame. -/
def unmarked (chars : List Byte) : Assembly :=
  { chars := chars.map fun v =>
      { value := v, marker := .dominant, noise := false, framing := false, overrun := false },
    overrun := false }

@[simp] theorem unmarked_values (chars : List Byte) :
    (unmarked chars).chars.map RxChar.value = chars := by
  simp [unmarked, Function.comp_def]

@[simp] theorem unmarked_count (chars : List Byte) :
    (unmarked chars).chars.length = chars.length := by
  simp [unmarked]

section
variable (kind : FrameKind) (sender : Station) (tag : Byte) (tseq : Tseq) {body : List Byte}

theorem length_of_frameChars :
    (unmarked (frameChars kind sender tag tseq body)).length = some (byteOf body.length) := rfl

theorem not_short_of_frameChars (h : body.length ≤ 24) :
    (unmarked (frameChars kind sender tag tseq body)).short = false := by
  simp only [Assembly.short, length_of_frameChars, unmarked_count, frameChars_length,
    frameLength_byteOf h, decide_eq_false_iff_not]
  omega

theorem checkPasses_of_frameChars (h : body.length ≤ 24) :
    (unmarked (frameChars kind sender tag tseq body)).checkPasses = true := by
  have hn : frameLength (byteOf body.length) - 2
      = (coveredChars kind sender tag tseq body).length := by
    rw [frameLength_byteOf h, coveredChars_length]
    omega
  rw [checkPasses_iff (length_of_frameChars kind sender tag tseq) hn, unmarked_values,
    frameChars_eq]
  simp

theorem frame_of_frameChars (h : body.length ≤ 24) (missing : Nat → Byte) :
    (unmarked (frameChars kind sender tag tseq body)).frame missing =
      ⟨kind.char, byteOf sender.val, tag, tseq, body⟩ := by
  have hbody : ((unmarked (frameChars kind sender tag tseq body)).frame missing).body = body := by
    rw [Assembly.frame_body_of_whole (not_short_of_frameChars kind sender tag tseq h)
      (length_of_frameChars kind sender tag tseq) (by rwa [byteOf_toNat_of_le h])]
    simp [frameChars_eq, coveredChars, byteOf_toNat_of_le h]
  have htseq : ((unmarked (frameChars kind sender tag tseq body)).frame missing).tseq = tseq :=
    word16_halves tseq
  rw [Frame.mk.injEq]
  exact ⟨rfl, rfl, rfl, htseq, hbody⟩

end

theorem known_of_kind_and_sender (kind : FrameKind) (sender : Station) (tag : Byte) (tseq : Tseq)
    (body : List Byte) :
    Frame.known ⟨kind.char, byteOf sender.val, tag, tseq, body⟩ = some (kind, sender) := by
  simp only [Frame.known, kindOf_char, stationOf_byteOf]

/-! ## The bits of a character (R34, R52) -/

/-- The value that the sampled data bits spell, first bit lowest. -/
def spelled (bits : List Level) : Byte :=
  bits.foldr (fun l acc => (acc <<< 1) ||| dataValue.bitOf l) 0

theorem dataValue_eq_spelled (bits : List Level) :
    dataValue bits = spelled ((bits.drop 1).take 8) := rfl

theorem getLsbD_bitOf (l : Level) (i : Nat) :
    (dataValue.bitOf l).getLsbD i = decide (i = 0 ∧ l = .recessive) := by
  cases l <;> simp [dataValue.bitOf]

theorem getLsbD_spelled (bits : List Level) (i : Nat) (hi : i < 8) :
    (spelled bits).getLsbD i = decide (bits[i]? = some .recessive) := by
  induction bits generalizing i with
  | nil => simp [spelled]
  | cons l bits ih =>
    have hcons : spelled (l :: bits) = (spelled bits <<< 1) ||| dataValue.bitOf l := rfl
    rw [hcons, BitVec.getLsbD_or, BitVec.getLsbD_shiftLeft, getLsbD_bitOf]
    cases i with
    | zero => simp
    | succ i => simp [ih i (by omega), hi]

theorem charBit_data (value : Byte) (first : Bool) {i : Nat} (hi : i < 8) :
    charBit value first (i + 1) = if value.getLsbD i then .recessive else .dominant := by
  rw [charBit, if_neg (Nat.succ_ne_zero i), if_pos (show i + 1 ≤ 8 from hi), Nat.add_sub_cancel]

theorem dataValue_charBits (value : Byte) (first : Bool) :
    dataValue ((List.range 11).map (charBit value first)) = value := by
  refine BitVec.eq_of_getLsbD_eq fun i hi => ?_
  have hbit : (((List.range 11).map (charBit value first)).drop 1 |>.take 8)[i]?
      = some (charBit value first (i + 1)) := by
    simp only [List.getElem?_take, List.getElem?_drop, List.getElem?_map]
    rw [if_pos hi, List.getElem?_range (by omega), Option.map_some, Nat.add_comm]
  rw [dataValue_eq_spelled, getLsbD_spelled _ i hi, hbit, charBit_data value first hi]
  cases value.getLsbD i <;> simp

/-- Settles O53: the check bit by bit, the layout, and the assembly of the characters sent. -/
theorem frameReadBackWhole : Obligations.FrameReadBackWhole := by
  refine ⟨checkBit_eq, frameCheck_eq_foldl_checkBit, frameChars_eq, ?_, ?_, dataValue_charBits⟩
  · intro a l hl
    simp only [← List.getElem?_map, List.map_take]
    exact checkPasses_iff hl (covered_count l)
  · intro kind sender tag tseq body missing h
    have hframe := frame_of_frameChars kind sender tag tseq h missing
    have hknown := known_of_kind_and_sender kind sender tag tseq body
    exact ⟨frameChars_length .., not_short_of_frameChars _ _ _ _ h,
      checkPasses_of_frameChars _ _ _ _ h, hframe, (congrArg Frame.known hframe).trans hknown⟩

end Sys2Proof.Machine.LineFrames

/-! One period of the reference clock: what the station drives, what a counted period and the end of a
bit do to the line interface, and the length of eleven bits (chapter 3). -/

namespace Sys2Proof.Machine.LineFrames

/-! ## The level of a bit and the own drive (R34, R48) -/

theorem charBit_start (value : Byte) (first : Bool) : charBit value first 0 = .dominant := rfl

theorem charBit_marker (value : Byte) (first : Bool) :
    charBit value first 9 = if first then .recessive else .dominant := rfl

theorem charBit_data_or_stop (value : Byte) (first : Bool) {n : Nat} (hn : n ≠ 8) :
    charBit value first (n + 1)
      = if n < 8 ∧ value.getLsbD n = false then .dominant else .recessive := by
  by_cases h8 : n < 8
  · rw [charBit_data value first h8]
    cases value.getLsbD n <;> simp [h8]
  · rw [charBit, if_neg (Nat.succ_ne_zero n), if_neg (by omega), if_neg (by omega),
      if_neg fun hdata => h8 hdata.1]

section
variable {s : State}

theorem ownDrive_of_break {n : Nat} (h : s.line.breakDrive = some n) :
    s.ownDrive = s.line.breakWait.getD .dominant := by
  simp only [State.ownDrive, h]

theorem ownDrive_of_veto (hb : s.line.breakDrive = none) (hv : s.line.vetoDriving = true) :
    s.ownDrive = .dominant := by
  simp only [State.ownDrive, hb, hv, if_true]

theorem ownDrive_of_sending (hb : s.line.breakDrive = none) (hv : s.line.vetoDriving = false)
    (hst : s.line.state = .contend ∨ s.line.state = .sending) :
    s.ownDrive = s.frameLevel s.line.bitIndex := by
  rcases hst with hst | hst <;> simp [State.ownDrive, hb, hv, hst]

theorem ownDrive_of_silent (hb : s.line.breakDrive = none) (hv : s.line.vetoDriving = false)
    (hc : s.line.state ≠ .contend) (hs : s.line.state ≠ .sending) : s.ownDrive = .recessive := by
  cases hst : s.line.state <;> simp_all [State.ownDrive]

theorem frameLevel_of_char {c : Byte} (i : Nat) (h : s.tx.frame[s.line.txChar]? = some c) :
    s.frameLevel i = charBit c (decide (s.line.txChar = 0)) i := by
  simp only [State.frameLevel, h]

theorem bitIndex_of_shift {l : LineIf} {h : Shift} (hl : l.shift = some h) :
    l.bitIndex = h.bits.length := by
  simp [LineIf.bitIndex, hl]

end

/-! ## One period (R49 to R51) -/

theorem beginBit_eq (d f : Nat) (l : LineIf) :
    l.beginBit d f = { l with
      acc := if 8 ≤ l.acc + f then l.acc + f - 8 else l.acc + f,
      bitLen := if 8 ≤ l.acc + f then d + 1 else d, samples := [] } := by
  unfold LineIf.beginBit
  split <;> rfl

/-- A period is a start edge: dominant after recessive while start edges are looked for (R51). -/
def IsEdge (level : Level) (l : LineIf) : Prop :=
  (l.state = .idle ∨ l.state = .settling ∨ l.state = .receiving)
    ∧ l.shift = none ∧ l.lastRecessive = true ∧ level = .dominant

/-- The bit of a period, begun by the first one. -/
def begunBit (d f : Nat) (l : LineIf) : LineIf :=
  if l.bitPos = 0 then
    { l with acc := if 8 ≤ l.acc + f then l.acc + f - 8 else l.acc + f,
             bitLen := if 8 ≤ l.acc + f then d + 1 else d, samples := [] }
  else l

/-- The bit after a period that is counted, with the sample it may be. -/
def countedPeriod (d f : Nat) (level : Level) (l : LineIf) : LineIf :=
  { begunBit d f l with
    bitPos := l.bitPos + 1, lastRecessive := decide (level = .recessive),
    samples :=
      if l.bitPos = d / 2 - d / 8 ∨ l.bitPos = d / 2 ∨ l.bitPos = d / 2 + d / 8
      then (begunBit d f l).samples ++ [level] else (begunBit d f l).samples }

theorem begunBit_eq (d f : Nat) (l : LineIf) :
    begunBit d f l = if l.bitPos = 0 then l.beginBit d f else l := by
  rw [begunBit, beginBit_eq]

@[simp] theorem begunBit_untouched (d f : Nat) (l : LineIf) :
    (begunBit d f l).bitPos = l.bitPos ∧ (begunBit d f l).state = l.state
      ∧ (begunBit d f l).shift = l.shift ∧ (begunBit d f l).dominantRun = l.dominantRun
      ∧ (begunBit d f l).recessiveCount = l.recessiveCount
      ∧ (begunBit d f l).windowTimer = l.windowTimer ∧ (begunBit d f l).vetoSeen = l.vetoSeen
      ∧ (begunBit d f l).breakDrive = l.breakDrive
      ∧ (begunBit d f l).breakWait = l.breakWait := by
  unfold begunBit
  split <;> simp only [and_self]

theorem sampled_iff (d p : Nat) :
    sampled d p = true ↔ p = d / 2 - d / 8 ∨ p = d / 2 ∨ p = d / 2 + d / 8 := by
  simp only [sampled, Bool.or_eq_true, decide_eq_true_eq, or_assoc]

theorem looks_iff (l : LineIf) :
    l.looks = true
      ↔ (l.state = .idle ∨ l.state = .settling ∨ l.state = .receiving) ∧ l.shift = none := by
  cases hst : l.state <;> simp [LineIf.looks, hst]

theorem isEdge_iff (level : Level) (l : LineIf) :
    IsEdge level l ↔ (l.looks && l.lastRecessive && decide (level = .dominant)) = true := by
  simp only [IsEdge, Bool.and_eq_true, decide_eq_true_eq, looks_iff, and_assoc]

section
variable {d f : Nat} {level : Level} {l : LineIf}

theorem period_of_edge (h : IsEdge level l) :
    l.period d f level = { l with edge := true, lastRecessive := false } :=
  if_pos ((isEdge_iff level l).1 h)

theorem period_of_not_edge (h : ¬ IsEdge level l) :
    l.period d f level =
      if (countedPeriod d f level l).bitLen ≤ (countedPeriod d f level l).bitPos
      then (countedPeriod d f level l).bitEnd else countedPeriod d f level l := by
  have hcounted : countedPeriod d f level l = { begunBit d f l with
      samples := if sampled d (begunBit d f l).bitPos then (begunBit d f l).samples ++ [level]
        else (begunBit d f l).samples,
      bitPos := (begunBit d f l).bitPos + 1, lastRecessive := decide (level = .recessive) } := by
    simp only [countedPeriod, sampled_iff, begunBit_untouched]
  rw [hcounted, begunBit_eq]
  exact if_neg (mt (isEdge_iff level l).2 h)

theorem period_within_bit (h : ¬ IsEdge level l)
    (hlt : (countedPeriod d f level l).bitPos < (countedPeriod d f level l).bitLen) :
    l.period d f level = countedPeriod d f level l := by
  rw [period_of_not_edge h, if_neg (Nat.not_le.2 hlt)]

theorem period_ends_bit (h : ¬ IsEdge level l)
    (hle : (countedPeriod d f level l).bitLen ≤ (countedPeriod d f level l).bitPos) :
    l.period d f level = (countedPeriod d f level l).bitEnd := by
  rw [period_of_not_edge h, if_pos hle]

end

/-! ## The end of a bit (R50 to R62) -/

theorem runAfter_eq (run : Nat) (level : Level) :
    runAfter run level = if level = .dominant then min 1024 (run + 1) else 0 := by
  cases level <;> rfl

theorem breakAfter_eq {l : LineIf} {wait : Option Level} {drive : Option Nat}
    (hw : l.breakWait = wait) (hd : l.breakDrive = drive) :
    l.breakAfter = if wait = none then drive.map fun n => n + 1 else drive := by
  cases wait <;> cases drive <;> simp [LineIf.breakAfter, hw, hd]

theorem vetoIn_eq (time run : Nat) :
    vetoIn time run = decide (12 ≤ min run time ∧ time - min run time < 6) := by
  rw [vetoIn, Bool.decide_and]

theorem countAfter_of_consecutive {l : LineIf} (level : Level)
    (h : l.state = .settling ∨ l.state = .breaking ∨ l.state = .fault) :
    l.countAfter level = if level = .recessive then l.recessiveCount + 1 else 0 := by
  rcases h with h | h | h <;> cases level <;> simp [LineIf.countAfter, h]

theorem countAfter_of_receiving {l : LineIf} (level : Level) (h : l.state = .receiving) :
    l.countAfter level
      = if level = .recessive then l.recessiveCount + 1 else l.recessiveCount := by
  cases level <;> simp [LineIf.countAfter, h]

theorem countAfter_of_uncounted {l : LineIf} (level : Level)
    (h : l.state = .idle ∨ l.state = .contend ∨ l.state = .sending) :
    l.countAfter level = l.recessiveCount := by
  rcases h with h | h | h <;> cases level <;> simp [LineIf.countAfter, h]

/-- What the end of a bit of the given level does in every state (R49, R58, R61). -/
def endedBit (l : LineIf) : LineIf :=
  { l with bitPos := 0, dominantRun := runAfter l.dominantRun (majority l.samples),
           breakWait := none, breakDrive := l.breakAfter }

theorem bitEnd_in_char {l : LineIf} {h : Shift} (hsh : l.shift = some h) :
    l.bitEnd = { endedBit l with
      shift := some { h with bits := h.bits ++ [majority l.samples],
                             noise := h.noise || disagree l.samples } } := by
  simp only [LineIf.bitEnd, hsh, endedBit]

theorem bitEnd_in_window {l : LineIf} (hsh : l.shift = none) (hst : l.state = .window) :
    l.bitEnd = { endedBit l with
      windowTimer := l.windowTimer + 1,
      vetoSeen := l.vetoSeen
        || vetoIn (l.windowTimer + 1) (runAfter l.dominantRun (majority l.samples)) } := by
  simp only [LineIf.bitEnd, hsh, hst, endedBit, if_true]

theorem bitEnd_outside_window {l : LineIf} (hsh : l.shift = none) (hst : l.state ≠ .window) :
    l.bitEnd = { endedBit l with recessiveCount := l.countAfter (majority l.samples) } := by
  simp only [LineIf.bitEnd, hsh, endedBit, if_neg hst]

/-- The level that a bit ended by this period is read at (R50). -/
def readLevel (d f : Nat) (level : Level) (l : LineIf) : Level :=
  majority (countedPeriod d f level l).samples

/-- What a period that ends a bit does in every state. -/
def endedPeriod (d f : Nat) (level : Level) (l : LineIf) : LineIf :=
  { countedPeriod d f level l with
    bitPos := 0,
    dominantRun := if readLevel d f level l = .dominant then min 1024 (l.dominantRun + 1) else 0,
    breakWait := none,
    breakDrive :=
      if l.breakWait = none then l.breakDrive.map fun n => n + 1 else l.breakDrive }

@[simp] theorem countedPeriod_untouched (d f : Nat) (level : Level) (l : LineIf) :
    (countedPeriod d f level l).state = l.state ∧ (countedPeriod d f level l).shift = l.shift
      ∧ (countedPeriod d f level l).dominantRun = l.dominantRun
      ∧ (countedPeriod d f level l).recessiveCount = l.recessiveCount
      ∧ (countedPeriod d f level l).windowTimer = l.windowTimer
      ∧ (countedPeriod d f level l).vetoSeen = l.vetoSeen
      ∧ (countedPeriod d f level l).breakDrive = l.breakDrive
      ∧ (countedPeriod d f level l).breakWait = l.breakWait := by
  simp only [countedPeriod, begunBit_untouched, and_self]

theorem endedBit_countedPeriod (d f : Nat) (level : Level) (l : LineIf) :
    endedBit (countedPeriod d f level l) = endedPeriod d f level l := by
  have hbreak : (countedPeriod d f level l).breakAfter
      = if l.breakWait = none then l.breakDrive.map fun n => n + 1 else l.breakDrive :=
    breakAfter_eq (by simp) (by simp)
  have hrun : (countedPeriod d f level l).dominantRun = l.dominantRun := by simp
  rw [endedBit, hrun, hbreak, runAfter_eq]
  rfl

section
variable {d f : Nat} {level : Level} {l : LineIf} (hedge : ¬ IsEdge level l)
  (hend : (countedPeriod d f level l).bitLen ≤ (countedPeriod d f level l).bitPos)
include hedge hend

theorem period_ends_bit_in_char {h : Shift} (hsh : l.shift = some h) :
    l.period d f level = { endedPeriod d f level l with
      shift := some { h with
        bits := h.bits ++ [readLevel d f level l],
        noise := h.noise || disagree (countedPeriod d f level l).samples } } := by
  rw [period_ends_bit hedge hend, bitEnd_in_char (h := h) (by simpa using hsh),
    endedBit_countedPeriod]
  rfl

theorem period_ends_bit_in_window (hsh : l.shift = none) (hst : l.state = .window) :
    l.period d f level = { endedPeriod d f level l with
      windowTimer := l.windowTimer + 1,
      vetoSeen := l.vetoSeen
        || vetoIn (l.windowTimer + 1) (endedPeriod d f level l).dominantRun } := by
  rw [period_ends_bit hedge hend, bitEnd_in_window (by simpa using hsh) (by simpa using hst),
    endedBit_countedPeriod, runAfter_eq]
  simp only [countedPeriod_untouched]
  rfl

theorem period_ends_bit_outside_window (hsh : l.shift = none) (hst : l.state ≠ .window) :
    l.period d f level = { endedPeriod d f level l with
      recessiveCount :=
        (countedPeriod d f level l).countAfter (readLevel d f level l) } := by
  rw [period_ends_bit hedge hend, bitEnd_outside_window (by simpa using hsh) (by simpa using hst),
    endedBit_countedPeriod]
  rfl

end

/-! ## The length of eleven bits (R49) -/

section
variable {d f : Nat} {l : LineIf} (hf : f ≤ 7) (hl : l.acc = 0)
include hf hl

theorem acc_after_bits (n : Nat) : (Nat.repeat (LineIf.beginBit d f) n l).acc = n * f % 8 := by
  induction n with
  | zero => simp [Nat.repeat, hl]
  | succ n ih =>
    simp only [Nat.repeat, beginBit_eq, ih, Nat.succ_mul]
    split <;> omega

/-- A bit is one period longer when its F carries the accumulated eighths over a whole. -/
theorem bitLen_after_bits (n : Nat) :
    (Nat.repeat (LineIf.beginBit d f) (n + 1) l).bitLen + n * f / 8 = d + (n + 1) * f / 8 := by
  have hacc := acc_after_bits (d := d) hf hl n
  simp only [Nat.repeat, beginBit_eq, hacc, Nat.succ_mul]
  split <;> omega

theorem sum_bitLen_after_bits (n : Nat) :
    ((List.range n).map fun k => (Nat.repeat (LineIf.beginBit d f) (k + 1) l).bitLen).sum
      = n * d + n * f / 8 := by
  induction n with
  | zero => simp
  | succ n ih =>
    have hlen := bitLen_after_bits (d := d) hf hl n
    simp only [List.range_succ, List.map_append, List.sum_append, ih, List.map_cons, List.map_nil,
      List.sum_cons, List.sum_nil, Nat.succ_mul n d]
    omega

end

/-! ## The clock (R48, R189) -/

theorem lineLevel_eq (own : Level) (item : Option LineInput) :
    lineLevel own (item.getD .released) = (match item with
      | some .pulled => .dominant
      | some .stuck => .recessive
      | some .released | none => own) := by
  rcases item with _ | item
  · rfl
  · cases item <;> rfl

theorem clock_line (s : State) :
    s.clock.line = s.line.period s.port.store.d s.port.store.f
      (lineLevel s.ownDrive (s.lineIn.head?.getD .released)) := rfl

/-- Settles O20, by the drive, the kinds of periods and the ends of bits, each by its own lemma. -/
theorem clockAndBitTiming : Obligations.ClockAndBitTiming := by
  refine ⟨fun s => ⟨rfl, ?_, ?_, fun hb => ⟨ownDrive_of_veto hb, fun hv =>
    ⟨ownDrive_of_silent hb hv, ?_⟩⟩, ?_⟩, ?_⟩
  · intro n hb hw
    rw [ownDrive_of_break hb, hw, Option.getD_none]
  · intro n held hb hw
    rw [ownDrive_of_break hb, hw, Option.getD_some]
  · intro h c hst hsh hc
    rw [ownDrive_of_sending hb hv hst, bitIndex_of_shift hsh, frameLevel_of_char _ hc]
    split
    · next hstart => rw [hstart, charBit_start]
    · next hmarker => simp only [hmarker, charBit_marker, decide_eq_true_eq]
    · next n hne hbit => rw [hbit, charBit_data_or_stop _ _ (by omega)]
  · intro level hlevel d f edge begun counted
    have hline : lineLevel s.ownDrive (s.lineIn.head?.getD .released) = level :=
      (lineLevel_eq _ _).trans hlevel.symm
    rw [clock_line, hline]
    refine ⟨period_of_edge, period_within_bit, fun hedge hend => ⟨fun h =>
      period_ends_bit_in_char hedge hend, fun hsh => ⟨fun hst => ?_, fun hst => ?_, fun hst => ?_,
      fun hst => ?_⟩⟩⟩
    · rw [period_ends_bit_in_window hedge hend hsh hst, vetoIn_eq]
      rfl
    · rw [period_ends_bit_outside_window hedge hend hsh (by rintro h; simp [h] at hst),
        countAfter_of_consecutive _ (by simpa using hst)]
      simp only [countedPeriod_untouched]
      rfl
    · rw [period_ends_bit_outside_window hedge hend hsh (by rintro h; simp [h] at hst),
        countAfter_of_receiving _ (by simpa using hst)]
      simp only [countedPeriod_untouched]
      rfl
    · rw [period_ends_bit_outside_window hedge hend hsh (by rintro h; simp [h] at hst),
        countAfter_of_uncounted _ (by simpa using hst)]
      rfl
  · intro d f l hf hl bits
    constructor
    · have hsum := sum_bitLen_after_bits (d := d) hf hl 11
      simpa [bits, List.range_succ_eq_map, Function.comp_def] using hsum
    · intro b hb
      obtain ⟨n, -, rfl⟩ := List.mem_map.1 hb
      rw [acc_after_bits hf hl]
      omega

end Sys2Proof.Machine.LineFrames

/-! Arbitration by the kind character, and the end of a character of the own frame (R38, R52, R53,
R57, R58). -/

namespace Sys2Proof.Machine.LineFrames

/-! ## Arbitration by rank (R37, R38) -/

/-- The class stands in data bits 0 and 1 of the kind character, bit 0 first on the line. -/
theorem rank_eq_class_bits (kind : FrameKind) :
    kind.rank = 2 * (kind.char.getLsbD 0).toNat + (kind.char.getLsbD 1).toNat := by
  cases kind <;> rfl

/-- Of two numbers of two bits the smaller has a zero at the first bit in which they differ. -/
theorem two_bits_lt {a0 a1 b0 b1 : Bool}
    (h : 2 * a0.toNat + a1.toNat < 2 * b0.toNat + b1.toNat) :
    (a0 = false ∧ b0 = true) ∨ (a0 = b0 ∧ a1 = false ∧ b1 = true) := by
  revert a0 a1 b0 b1
  decide

theorem charBit_of_zero {value : Byte} {i : Nat} (hi : i < 8) (h : value.getLsbD i = false)
    (first : Bool) : charBit value first (i + 1) = .dominant := by
  simp [charBit_data value first hi, h]

theorem charBit_of_one {value : Byte} {i : Nat} (hi : i < 8) (h : value.getLsbD i = true)
    (first : Bool) : charBit value first (i + 1) = .recessive := by
  simp [charBit_data value first hi, h]

theorem higher_class_drives_dominant {a b : FrameKind} (h : a.rank < b.rank) :
    ∃ i : Nat, 1 ≤ i ∧ i ≤ 8 ∧ charBit a.char true i = .dominant
      ∧ charBit b.char true i = .recessive
      ∧ ∀ j, j < i → charBit a.char true j = charBit b.char true j := by
  rw [rank_eq_class_bits, rank_eq_class_bits] at h
  rcases two_bits_lt h with ⟨ha, hb⟩ | ⟨h0, ha, hb⟩
  · refine ⟨1, by decide, by decide, charBit_of_zero (by decide) ha true,
      charBit_of_one (by decide) hb true, fun j hj => ?_⟩
    rw [Nat.lt_one_iff.1 hj, charBit_start, charBit_start]
  · refine ⟨2, by decide, by decide, charBit_of_zero (by decide) ha true,
      charBit_of_one (by decide) hb true, fun j hj => ?_⟩
    obtain rfl | rfl : j = 0 ∨ j = 1 := by omega
    · rw [charBit_start, charBit_start]
    · rw [charBit_data _ _ (by decide), charBit_data _ _ (by decide), h0]

/-! ## When a character completes (R52) -/

theorem breakDue_of_short_run {s : State} (h : s.line.dominantRun < 12) : s.breakDue = false := by
  simp [State.breakDue, Nat.not_le.2 h]

theorem lossDue_of_not_contend {s : State} (h : s.line.state ≠ .contend) : s.lossDue = false := by
  simp [State.lossDue, h]

theorem wholeChar_of_own {h : Shift} {l : LineIf} (hst : l.state = .contend ∨ l.state = .sending)
    (hsh : l.shift = some h) (hbits : h.bits.length = 11) : l.wholeChar = some h := by
  rcases hst with hst | hst <;> simp [LineIf.wholeChar, hst, hsh, hbits]

theorem characterComplete_of_due {h : Shift} {s : State} (hdue : s.charDue = true)
    (hwhole : s.line.wholeChar = some h) :
    exec .characterComplete s = .next { s with line := s.line.complete h } := by
  have harm : exec .characterComplete s = execCharacterComplete s := rfl
  rw [harm, execCharacterComplete, whenDue_of_due _ _ hdue, State.charEffect]
  simp only [hwhole]
  rfl

/-! ## The character's place in its frame (R53) -/

theorem positionAfter_fst (l : LineIf) (c : RxChar) :
    (l.positionAfter c).1 = (match c.marker with
      | .recessive => 1
      | .dominant => if l.framePos = 0 then 0 else l.framePos + 1) := by
  unfold LineIf.positionAfter
  cases c.marker
  · dsimp only
    split <;> rfl
  · rfl

theorem positionAfter_snd (l : LineIf) (c : RxChar) :
    (l.positionAfter c).2 = (match c.marker with
      | .recessive => none
      | .dominant => if l.framePos = 5 then some c.value else l.frameLen) := by
  unfold LineIf.positionAfter
  cases c.marker
  · by_cases h0 : l.framePos = 0
    · simp [h0]
    · simp [h0, show l.framePos + 1 = 6 ↔ l.framePos = 5 by omega]
  · rfl

theorem frameEnds_eq_false_iff (position : Nat) (length : Option Byte) :
    frameEnds position length = false
      ↔ ∀ l, length = some l → position ≠ if l.toNat ≤ 24 then 8 + l.toNat else 8 := by
  cases length with
  | none => simp [frameEnds]
  | some l =>
    simp only [frameEnds, decide_eq_false_iff_not, Option.some.injEq, forall_eq']
    rfl

/-- No frame ends before its eighth character. -/
theorem frameEnds_of_lt_eight {position : Nat} (h : position < 8) (length : Option Byte) :
    frameEnds position length = false := by
  rw [frameEnds_eq_false_iff]
  intro l _
  split <;> omega

/-- A character taken at frame position 0 or 1 is too early to end a frame (R36, R53). -/
theorem positionAfter_lt_eight {l : LineIf} (c : RxChar) (h : l.framePos ≤ 1) :
    (l.positionAfter c).1 < 8 := by
  rw [positionAfter_fst]
  cases c.marker
  · dsimp only
    split <;> omega
  · exact (by decide : 1 < 8)

/-! ## The own characters follow one another (R57, R58) -/

/-- The line interface after a character of the own frame that does not end it. -/
def afterOwnChar (h : Shift) (l : LineIf) : LineIf :=
  { l with
    state := if l.state = .contend ∧ l.txChar = 1 then .sending else l.state,
    shift := some ⟨[], false, true⟩, acc := 0, txChar := l.txChar + 1,
    framePos := (l.positionAfter (completedChar h)).1,
    frameLen := (l.positionAfter (completedChar h)).2,
    stream := pushChar (completedChar h) l.stream }

theorem nextChar_of_own {l : LineIf} (hst : l.state = .contend ∨ l.state = .sending) :
    l.nextChar = { l with
      state := if l.state = .contend ∧ l.txChar = 1 then .sending else l.state,
      acc := 0, shift := some ⟨[], false, true⟩, txChar := l.txChar + 1 } := by
  rcases hst with hst | hst
  · by_cases htx : l.txChar = 1 <;> simp [LineIf.nextChar, hst, htx]
  · simp [LineIf.nextChar, hst]

section
variable {h : Shift} {s : State}

theorem complete_of_own {l : LineIf} (hst : l.state = .contend ∨ l.state = .sending)
    (hend : frameEnds (l.positionAfter (completedChar h)).1
      (l.positionAfter (completedChar h)).2 = false) :
    l.complete h = afterOwnChar h l := by
  simp only [LineIf.complete, hend, Bool.false_eq_true, if_false]
  exact nextChar_of_own hst

theorem characterComplete_of_own
    (hst : s.line.state = .contend ∧ s.lossDue = false ∨ s.line.state = .sending)
    (hmismatch : s.mismatchDue = false) (hsh : s.line.shift = some h) (hbits : h.bits.length = 11)
    (hrun : s.line.dominantRun < 12)
    (hend : frameEnds (s.line.positionAfter (completedChar h)).1
      (s.line.positionAfter (completedChar h)).2 = false) :
    exec .characterComplete s = .next { s with line := afterOwnChar h s.line } := by
  have hown : s.line.state = .contend ∨ s.line.state = .sending := hst.imp_left And.left
  have hloss : s.lossDue = false := by
    rcases hst with ⟨-, hloss⟩ | hst
    · exact hloss
    · exact lossDue_of_not_contend (by simp [hst])
  have hwhole := wholeChar_of_own hown hsh hbits
  have hdue : s.charDue = true := by
    simp [State.charDue, hwhole, hloss, hmismatch, breakDue_of_short_run hrun]
  rw [characterComplete_of_due hdue hwhole, complete_of_own hown hend]

theorem afterOwnChar_state {l : LineIf} (hst : l.state = .contend ∨ l.state = .sending) :
    (afterOwnChar h l).state = .contend ∨ (afterOwnChar h l).state = .sending := by
  unfold afterOwnChar
  dsimp only
  split
  · exact .inr rfl
  · exact hst

/-- The start bit of the next own character is driven. -/
theorem ownDrive_afterOwnChar {x : Byte} (hst : s.line.state = .contend ∨ s.line.state = .sending)
    (hb : s.line.breakDrive = none) (hv : s.line.vetoDriving = false)
    (hx : s.tx.frame[s.line.txChar + 1]? = some x) :
    ({ s with line := afterOwnChar h s.line } : State).ownDrive = .dominant := by
  have hown := afterOwnChar_state (h := h) hst
  have hdrive : ({ s with line := afterOwnChar h s.line } : State).ownDrive
      = State.frameLevel { s with line := afterOwnChar h s.line } 0 :=
    ownDrive_of_sending (s := { s with line := afterOwnChar h s.line }) hb hv hown
  rw [hdrive, frameLevel_of_char 0 hx, charBit_start]

end

theorem pushChar_eq (c : RxChar) (l : LineIf) :
    pushChar c l.stream = if l.charCount < 5 then l.stream ++ [.char c] else markOverrun l.stream :=
  rfl

/-- Settles O24, by the class bits of the kind character and the completion of an own character. -/
theorem arbitrationWonByRank : Obligations.ArbitrationWonByRank := by
  refine ⟨fun a b => higher_class_drives_dominant, ?_, ?_⟩
  · intro h s hst hsh hbits hrun hloss hmismatch hpos
    have hend := frameEnds_of_lt_eight
      (positionAfter_lt_eight (completedChar h) (l := s.line) (by omega))
    refine ⟨_, characterComplete_of_own (.inl ⟨hst, hloss⟩) hmismatch hsh hbits hrun (hend _),
      rfl, rfl, rfl, rfl, ?_⟩
    simp only [afterOwnChar, hst, true_and]
  · intro h s hst hmismatch hsh hbits hrun c position length hnot
    have hposition : (s.line.positionAfter (completedChar h)).1 = position :=
      positionAfter_fst s.line c
    have hlength : (s.line.positionAfter (completedChar h)).2 = length :=
      positionAfter_snd s.line c
    have hend := (frameEnds_eq_false_iff position length).2 hnot
    rw [← hposition, ← hlength] at hend
    refine ⟨_, characterComplete_of_own hst hmismatch hsh hbits hrun hend, ?_,
      fun x hb hv hx => ownDrive_afterOwnChar (hst.imp_left And.left) hb hv hx⟩
    rw [afterOwnChar, hposition, hlength, pushChar_eq]
    rfl

end Sys2Proof.Machine.LineFrames

/-! What joining and leaving a group use in common: a frame made owed, the frames of a kind withdrawn,
and the detach (R67, R78, R145). -/

namespace Sys2Proof.Machine.GroupForming

/-! ## Owed or queued (R67) -/

theorem handOut_owed_or_queued_with_body (s : State) (o : OwedFrame) (h : s.Owes o) :
    s.handOut.Owes o ∨ ∃ e ∈ s.handOut.tx.queue, e.kind = o.kind ∧ e.body = o.body s :=
  (s.handOut_owed o h).imp_right fun ⟨e, he, hkind, _, hbody⟩ => ⟨e, he, hkind, hbody⟩

theorem handOut_owed_or_queued (s : State) (o : OwedFrame) (h : s.Owes o) :
    s.handOut.Owes o ∨ ∃ e ∈ s.handOut.tx.queue, e.kind = o.kind :=
  (handOut_owed_or_queued_with_body s o h).imp_right fun ⟨e, he, hkind, _⟩ => ⟨e, he, hkind⟩

theorem mem_of_holds {t : Transmitter} {kind : FrameKind} (h : t.holds kind = true) :
    ∃ e ∈ t.queue, e.kind = kind := by
  obtain ⟨e, he, hof⟩ := List.any_eq_true.1 h
  simp only [Bool.and_eq_true, decide_eq_true_eq] at hof
  exact ⟨e, he, hof.1⟩

theorem oweJoinAsk_owed_or_queued (s : State) :
    s.oweJoinAsk.ctrl.owed.joinAsk = true ∨ ∃ e ∈ s.oweJoinAsk.tx.queue, e.kind = .joinAsk := by
  unfold State.oweJoinAsk
  split
  · next h => exact (Bool.or_eq_true_iff.1 h).imp_right mem_of_holds
  · exact handOut_owed_or_queued _ .joinAsk rfl

theorem owePresence_owed_or_queued (s : State) :
    s.owePresence.ctrl.owed.presence = true
      ∨ ∃ e ∈ s.owePresence.tx.queue, e.kind = .presence := by
  unfold State.owePresence
  split
  · next h => exact (Bool.or_eq_true_iff.1 h).imp_right mem_of_holds
  · exact handOut_owed_or_queued _ .presence rfl

/-! ## Frames withdrawn by kind (R78) -/

theorem owes_of_cancelKind {kind : FrameKind} {s : State} {o : OwedFrame}
    (h : (s.cancelKind kind).Owes o) : s.Owes o := by
  have huncut (q : Transmitter → Transmitter) : (s.mapTx q).Owes o → s.Owes o := by
    cases o <;> exact id
  unfold State.cancelKind at h
  split at h
  · exact huncut _ h
  · exact huncut _ (State.owes_of_handOut h)

/-- The controller's frames of a kind that stood in `s` are withdrawn in `t`: what is left of the kind
is ACTIVE with the cancel mark, and every ACTIVE one is left so. -/
def Withdrawn (kind : FrameKind) (s t : State) : Prop :=
  (∀ x ∈ t.tx.queue, x.kind = kind → x.owner = .controller → x.state = .active ∧ x.cancel = true)
    ∧ ∀ x ∈ s.tx.queue, x.kind = kind → x.owner = .controller → x.state = .active →
      { x with cancel := true } ∈ t.tx.queue

section
variable {kind : FrameKind} {s t : State}

theorem cancelKind_withdrawn (hnone : ∀ o, s.Owes o → o.kind ≠ kind) :
    Withdrawn kind s (s.cancelKind kind) := by
  refine ⟨fun x hx hkind howner => State.cancelKind_left hnone hx (by simp [ofKind, *]),
    fun x hx hkind howner hactive => ?_⟩
  obtain ⟨extra, hq, -⟩ := s.cancelKind_queue kind
  rw [hq]
  refine List.mem_append_left _ (List.mem_map.2 ⟨x, List.mem_filter.2 ⟨hx, ?_⟩, ?_⟩)
  · simp [keptBy, hactive]
  · simp [markCancelled, ofKind, hkind, howner, hactive]

/-- What is handed out later is of other kinds while no frame of the kind is owed. -/
theorem Withdrawn.handOut (h : Withdrawn kind s t) (hnone : ∀ o, t.Owes o → o.kind ≠ kind) :
    Withdrawn kind s t.handOut := by
  obtain ⟨hleft, hmarked⟩ := h
  refine ⟨fun x hx hkind howner => ?_, fun x hx hkind howner hactive => ?_⟩
  · rcases t.handOut_mem hx with hx | ⟨o, howed, ho, -⟩
    · exact hleft x hx hkind howner
    · exact absurd (ho.symm.trans hkind) (hnone o howed)
  · obtain ⟨extra, hq, -⟩ := t.handOut_queue
    rw [hq]
    exact List.mem_append_left _ (hmarked x hx hkind howner hactive)

end

theorem handOut_not_owed {s : State} (o : OwedFrame) (h : ¬ s.Owes o) : ¬ s.handOut.Owes o :=
  mt State.owes_of_handOut h

theorem kind_ne_announce {s : State} (h : s.ctrl.owed.announce = false) (o : OwedFrame)
    (ho : s.Owes o) : o.kind ≠ .announce := by
  cases o with
  | announce => exact absurd ho (Bool.eq_false_iff.1 h)
  | _ => exact fun hkind => nomatch hkind

theorem kind_ne_joinAsk {s : State} (h : s.ctrl.owed.joinAsk = false) (o : OwedFrame)
    (ho : s.Owes o) : o.kind ≠ .joinAsk := by
  cases o with
  | joinAsk => exact absurd ho (Bool.eq_false_iff.1 h)
  | _ => exact fun hkind => nomatch hkind

/-! ## The detach (R80, R102, R145, R169) -/

/-- The station with its group gone and its live records LOST, before the detach is reported. -/
def groupLost (s : State) : State :=
  allRecords.foldl State.loseRecord { s with table := .absent }.clearGroup

theorem detach_eq {reason : DetachReason} {s : State} (h : s.CanDetach) :
    s.detach reason =
      if reason = .left ∨ s.ctrl.leaveMark = true
      then ((groupLost s).reportDetach reason).enterOffline
      else ((groupLost s).reportDetach reason).enterHoldoff := by
  unfold State.detach
  rcases h with h | h | h | h | h <;> simp [h, groupLost]

@[simp] theorem groupLost_ctrl (s : State) :
    (groupLost s).ctrl = s.ctrl.cleared s.ownE := by
  simp [groupLost, State.ownE]

@[simp] theorem groupLost_blocks (s : State) :
    (groupLost s).table = .absent ∧ (groupLost s).tx = .empty ∧ (groupLost s).rx = s.rx.clear
      ∧ (groupLost s).port = s.port ∧ (groupLost s).timebase = s.timebase
      ∧ (groupLost s).pending = s.pending ∧ (groupLost s).lineIn = s.lineIn := by
  simp [groupLost]

theorem allRecords_nodup : allRecords.Nodup := List.nodup_finRange 32

theorem groupLost_record (s : State) (k : RecordIndex) :
    (groupLost s).records[k] = s.records[k].afterDetach := by
  have hk : k ∈ allRecords := List.mem_finRange k
  rw [groupLost, State.loseRecords_record _ _ allRecords_nodup, if_pos hk,
    State.clearGroup_records]

theorem groupLost_notices (s : State) :
    (groupLost s).notices = s.postsFor (allRecords.filter fun k => s.records[k].state.live) := by
  rw [groupLost, State.loseRecords_notices _ _ allRecords_nodup]
  simp only [State.postsFor, State.clearGroup_notices, State.clearGroup_records]

/-- The controller after a detach (R104, R131, R145 to R147). -/
def detachedCtrl (reason : DetachReason) (s : State) : Controller :=
  { Controller.reset with
    station := if reason = .left ∨ s.ctrl.leaveMark = true then .offline else .holdoff,
    workingE := s.ownE, founding := s.ctrl.founding, lineFault := s.ctrl.lineFault,
    holdoff := if reason = .left ∨ s.ctrl.leaveMark = true then .stopped
      else .running s.holdoffLength,
    lastDetach := some reason }

theorem detach_eq_groupLost {s : State} (reason : DetachReason) (h : s.CanDetach) :
    s.detach reason = { groupLost s with
      notices := (groupLost s).notices.post .detached reason.code,
      ctrl := detachedCtrl reason s } := by
  rw [detach_eq h]
  split <;> simp [State.reportDetach, State.enterOffline, State.enterHoldoff, State.mapCtrl,
    State.post, State.mapNotices, State.holdoffLength, State.own, Controller.cleared,
    detachedCtrl, *]

theorem detach_detached {s : State} (reason : DetachReason) (h : s.CanDetach) :
    Detached reason s (s.detach reason) := by
  obtain ⟨htable, htx, hrx, hport, htimebase, hpending, hlineIn⟩ := groupLost_blocks s
  have hrecord := groupLost_record s
  have hnotices := groupLost_notices s
  rw [detach_eq_groupLost reason h]
  generalize groupLost s = lost at *
  refine ⟨htable, htx, hrx, rfl, fun k hlive => ?_, fun k hdead => ?_,
    congrArg (NoticeQueue.post .detached reason.code) hnotices, hport, htimebase, hpending,
    hlineIn⟩
  · rw [hrecord, ClaimRecord.afterDetach, if_pos hlive]
    exact ⟨rfl, rfl, rfl, rfl⟩
  · rw [hrecord, ClaimRecord.afterDetach, if_neg (Bool.eq_false_iff.1 hdead)]
    exact ⟨rfl, rfl, rfl, rfl, rfl⟩

end Sys2Proof.Machine.GroupForming

/-! What the timers of the membership controller do when they have run out (chapters 6 and 7). -/

namespace Sys2Proof.Machine.GroupForming

/-! ## The timers of joining (R108, R109, R113, R114) -/

theorem exec_listenTimerExpiry {s : State} (hst : s.ctrl.station = .listening)
    (hrun : s.ctrl.listen = .running 0) : exec .listenTimerExpiry s = .next s.listenEffect :=
  whenDue_of_due _ _ (by simp [Timer.due, hst, hrun])

theorem exec_askTimerExpiry {s : State} (hst : s.ctrl.station = .asking)
    (hrun : s.ctrl.ask = .running 0) : exec .askTimerExpiry s = .next s.askEffect :=
  whenDue_of_due _ _ (by simp [Timer.due, hst, hrun])

/-- The tag of a group to be founded is station x 8 + founding counter, at most 255 (R109). -/
theorem foundingTag_toNat (x : Station) (n : Fin 8) :
    (byteOf (x.val * 8 + n.val)).toNat = x.val * 8 + n.val := by
  simp only [byteOf, BitVec.toNat_ofNat]
  omega

theorem enterFounding_ctrl (s : State) :
    s.enterFounding.ctrl.station = .founding ∧ s.enterFounding.ctrl.listen = s.ctrl.listen
      ∧ s.enterFounding.ctrl.askedTag = byteOf (s.own.val * 8 + s.ctrl.founding.val) := by
  simp [State.enterFounding, State.enter]

theorem enterFounding_announces (s : State) :
    s.enterFounding.ctrl.owed.announce = true ∨ ∃ e ∈ s.enterFounding.tx.queue,
      e.kind = .announce ∧ e.body = [byteOf s.port.store.p, byteOf s.port.store.k] := by
  unfold State.enterFounding State.enter
  exact handOut_owed_or_queued_with_body _ .announce rfl

theorem enterAsking_ctrl (s : State) :
    s.enterAsking.ctrl.station = .asking ∧ s.enterAsking.ctrl.listen = s.ctrl.listen
      ∧ s.enterAsking.ctrl.askedTag = s.ctrl.askedTag ∧ s.enterAsking.ctrl.askCount = 1
      ∧ s.enterAsking.ctrl.ask = .stopped ∧ s.enterAsking.ctrl.learnedE = s.ctrl.learnedE
      ∧ s.enterAsking.ctrl.workingE
        = s.ctrl.learnedE.getD (s.port.store.k * (s.port.store.p * 10)) := by
  simp [State.enterAsking, State.enter, State.ownE, evictionTimeout]

theorem enterAsking_asks (s : State) :
    s.enterAsking.ctrl.owed.joinAsk = true
      ∨ ∃ e ∈ s.enterAsking.tx.queue, e.kind = .joinAsk ∧ e.body = [] := by
  unfold State.enterAsking State.enter
  exact handOut_owed_or_queued_with_body _ .joinAsk rfl

theorem listenEffect_of_none {s : State} (h : s.ctrl.lowestTag = none) :
    s.listenEffect = (s.mapCtrl fun c => { c with listen := .stopped }).enterFounding := by
  simp [State.listenEffect, h]

theorem listenEffect_of_some {s : State} {low : Byte} (h : s.ctrl.lowestTag = some low) :
    s.listenEffect = ((s.mapCtrl fun c => { c with listen := .stopped }).mapCtrl fun c =>
      { c with askedTag := low }).enterAsking := by
  simp [State.listenEffect, h]

theorem askEffect_of_low_count {s : State} (h : s.ctrl.askCount < 3) :
    s.askEffect = (s.mapCtrl fun c =>
      { c with ask := .stopped, askCount := c.askCount + 1,
               owed := { c.owed with joinAsk := true } }).handOut :=
  if_pos h

theorem flush_eq (s : State) : s.flush = { s with line := s.lineFlushed, tx := .empty } := by
  have hline : s.flush.line = s.lineFlushed := s.flush_line
  rw [← hline]
  unfold State.flush
  split <;> rfl

theorem askFailed_eq (s : State) :
    s.askFailed = { s with
      line := s.lineFlushed, tx := .empty, rx := s.rx.clear,
      ctrl := { s.ctrl.cleared s.ownE with
        station := .holdoff, holdoff := .running s.holdoffLength, lastDetach := some .askFailed },
      notices := s.notices.post .detached DetachReason.askFailed.code } := by
  rw [State.askFailed, State.clearGroup, flush_eq]
  rfl

/-- Settles O49, by the entry to FOUNDING or ASKING, the next JOIN-ASK, and the end of ASKING. -/
theorem joiningTimersExpire : Obligations.JoiningTimersExpire := by
  refine fun s => ⟨fun hst hrun => ?_, fun hst hrun => ?_⟩
  · rw [exec_listenTimerExpiry hst hrun]
    refine ⟨fun hlow => ?_, fun low hlow => ?_⟩
    · rw [listenEffect_of_none hlow]
      obtain ⟨hfounding, hlisten, htag⟩ := enterFounding_ctrl
        (s.mapCtrl fun c => { c with listen := .stopped })
      refine ⟨_, rfl, hfounding, hlisten, ?_, enterFounding_announces _, by simp⟩
      rw [htag]
      exact foundingTag_toNat _ _
    · rw [listenEffect_of_some hlow]
      obtain ⟨hasking, hlisten, htag, hcount, hask, -, hworking⟩ := enterAsking_ctrl
        ((s.mapCtrl fun c => { c with listen := .stopped }).mapCtrl fun c =>
          { c with askedTag := low })
      exact ⟨_, rfl, hasking, hlisten, htag, hcount, hask, hworking, enterAsking_asks _, by simp⟩
  · rw [exec_askTimerExpiry hst hrun]
    refine ⟨fun hcount => ?_, fun hcount => ?_⟩
    · rw [askEffect_of_low_count hcount]
      refine ⟨_, rfl, ?_, ?_, ?_, handOut_owed_or_queued _ .joinAsk rfl, ?_⟩ <;> simp [hst]
    · rw [State.askEffect, if_neg (Nat.not_lt.2 hcount), askFailed_eq]
      rfl

/-! ## The other timers of the controller (R128, R129, R132, R137, R147) -/

theorem exec_stallTimerExpiry {s : State} (hst : s.ctrl.station = .catchup)
    (hrun : s.ctrl.stall = .running 0) : exec .stallTimerExpiry s = .next s.stallEffect :=
  whenDue_of_due _ _ (by simp [Timer.due, hst, hrun])

theorem exec_holdoffTimerExpiry {s : State} (hst : s.ctrl.station = .holdoff)
    (hrun : s.ctrl.holdoff = .running 0) : exec .holdoffTimerExpiry s = .next s.holdoffEffect :=
  whenDue_of_due _ _ (by simp [Timer.due, hst, hrun])

theorem exec_presenceTimerExpiry {s : State} (hst : s.ctrl.station.inGroup = true)
    (hrun : s.ctrl.presence = .running 0) :
    exec .presenceTimerExpiry s = .next s.presenceEffect :=
  whenDue_of_due _ _ (by simp [Timer.due, hst, hrun])

theorem exec_silenceTimerExpiry {s : State} {x : Station}
    (hrun : s.ctrl.silence[x] = some (.running 0)) :
    exec (.silenceTimerExpiry x) s = .next (s.silenceEffect x) :=
  whenDue_of_due _ _ (decide_eq_true hrun)

theorem stallEffect_of_not_failed {s : State} (h : s.ctrl.failed = false) :
    s.stallEffect = (s.mapCtrl fun c =>
      { c with failed := true, pendingApply := [], snapshot := .empty,
               owed := { c.owed with leave := true }, stall := .running c.workingE }).handOut := by
  simp [State.stallEffect, State.catchupFailure, State.mapCtrl, h]

theorem stallEffect_of_failed {s : State} (h : s.ctrl.failed = true) :
    s.stallEffect = (s.mapCtrl fun c => { c with stall := .stopped }).detach
      (if s.ctrl.leaveMark then .left else .catchupFailed) := by
  simp [State.stallEffect, State.endFailedCatchup, h]

theorem holdoffEffect_eq (s : State) :
    s.holdoffEffect = { s with ctrl := { s.ctrl with
      station := .listening, holdoff := .stopped, workingE := s.ownE, learnedE := none,
      lowestTag := none, listen := .start (2 * s.ownE) s.ctrl.lineFault } } := by
  rw [State.holdoffEffect, State.enterListening, State.enter_of_silent _ _ (.inr (.inl rfl))]
  rfl

theorem owePresence_keeps_station_and_workingE (s : State) :
    s.owePresence.ctrl.station = s.ctrl.station
      ∧ s.owePresence.ctrl.workingE = s.ctrl.workingE := by
  unfold State.owePresence
  split <;> simp

theorem presenceInterval_owePresence (s : State) :
    s.owePresence.presenceInterval = s.presenceInterval := by
  simp [State.presenceInterval, owePresence_keeps_station_and_workingE]

theorem silenceEffect_of_none {s : State} {x : Station} (h : s.ctrl.evictInHand = none) :
    s.silenceEffect x = (s.mapCtrl fun c =>
      { c with silence := c.silence.set x (some .expired), evictions := c.evictions ++ [x],
               evictInHand := some ⟨x, .owed⟩ }).handOut := by
  simp [State.silenceEffect, State.mapCtrl, h]

theorem silenceEffect_of_some {s : State} {x : Station} {y : EvictInHand}
    (h : s.ctrl.evictInHand = some y) :
    s.silenceEffect x = s.mapCtrl fun c =>
      { c with silence := c.silence.set x (some .expired), evictions := c.evictions ++ [x] } := by
  simp [State.silenceEffect, State.mapCtrl, h]

/-- Settles O50, timer by timer; the failed catch-up ends by the detach. -/
theorem controllerTimersExpire : Obligations.ControllerTimersExpire := by
  refine ⟨fun s => ⟨fun hst hrun => ?_, fun hst hrun => ?_⟩,
    fun s => ⟨fun hst hrun => ?_, fun x hrun => ?_⟩⟩
  · rw [exec_stallTimerExpiry hst hrun]
    refine ⟨fun hfailed => ?_, fun hfailed => ?_⟩
    · rw [stallEffect_of_not_failed hfailed]
      refine ⟨_, rfl, ?_, ?_, ?_, handOut_owed_or_queued _ .leave rfl, ?_⟩ <;> simp [hst]
    · rw [stallEffect_of_failed hfailed]
      exact ⟨_, rfl, detach_detached (s := s.mapCtrl fun c => { c with stall := .stopped }) _
        (.inr (.inr (.inl hst)))⟩
  · rw [exec_holdoffTimerExpiry hst hrun, holdoffEffect_eq]
    rfl
  · rw [exec_presenceTimerExpiry hst hrun]
    refine ⟨_, rfl, congrArg Timer.running (presenceInterval_owePresence s),
      owePresence_owed_or_queued s, (owePresence_keeps_station_and_workingE s).1, by simp⟩
  · rw [exec_silenceTimerExpiry hrun]
    refine ⟨fun hnone => ?_, fun y hsome => ?_⟩
    · rw [silenceEffect_of_none hnone]
      refine ⟨_, rfl, ?_⟩
      simp
    · rw [silenceEffect_of_some hsome]
      rfl

end Sys2Proof.Machine.GroupForming

/-! What a frame from the inbox does at a station in LISTENING, FOUNDING or ASKING (sections 6.2 to
6.5). -/

namespace Sys2Proof.Machine.GroupForming

/-! ## A frame handed on without a replica (R94, R95) -/

section
variable {f : Frame} {flag : Bool} {rest : List InboxFrame} {kind : FrameKind} {sender : Station}
  {s : State}

theorem shortSnapshot_of_short (hkind : kind = .snapshot) (hlen : f.body.length < 6) :
    shortSnapshot kind f = true := by
  simp [shortSnapshot, carriesPart, hkind, hlen]

theorem shortSnapshot_of_whole (h : kind ≠ .snapshot ∨ 6 ≤ f.body.length) :
    shortSnapshot kind f = false := by
  rcases h with h | h <;> simp [shortSnapshot, carriesPart, h]

/-- The state with the inbox head taken away. -/
def popped (rest : List InboxFrame) (s : State) : State :=
  { s with rx := { s.rx with inbox := rest } }

variable (hslot : s.rx.handoff = none)
  (hinbox : s.rx.inbox = { frame := f, accepted := true, ownVeto := flag } :: rest)
include hslot hinbox

theorem exec_handoff_eq : exec .handoff s = .next ((popped rest s).handOn f) := by
  have hframe : s.handoffFrame = some f := by simp [State.handoffFrame, hslot, hinbox]
  have hpop : s.mapRx Receiver.popInbox = popped rest s := by
    simp [State.mapRx, Receiver.popInbox, popped, hinbox]
  have harm : exec .handoff s = execHandoff s := rfl
  rw [harm, execHandoff, whenDue_of_due _ _ (by simp [hframe]), State.handoffEffect, hframe,
    ← hpop]

variable (hknown : f.known = some (kind, sender))
include hknown

theorem exec_handoff_of_short (hst : s.ctrl.station = .listening ∨ s.ctrl.station = .founding
      ∨ s.ctrl.station = .asking) (hshort : shortSnapshot kind f = true) :
    exec .handoff s = .next (popped rest s) := by
  rw [exec_handoff_eq hslot hinbox]
  rcases hst with hst | hst | hst <;> simp [State.handOn, hknown, popped, hst, hshort]

theorem exec_handoff_listening (hst : s.ctrl.station = .listening)
    (hwhole : shortSnapshot kind f = false) :
    exec .handoff s = .next ((popped rest s).groupHeard kind f) := by
  rw [exec_handoff_eq hslot hinbox]
  simp [State.handOn, hknown, popped, hst, hwhole]

theorem exec_handoff_founding (hst : s.ctrl.station = .founding)
    (hwhole : shortSnapshot kind f = false) :
    exec .handoff s = .next ((popped rest s).foundingTakes kind sender f) := by
  rw [exec_handoff_eq hslot hinbox]
  simp [State.handOn, hknown, popped, hst, hwhole]

theorem exec_handoff_asking (hst : s.ctrl.station = .asking)
    (hwhole : shortSnapshot kind f = false) :
    exec .handoff s = .next ((popped rest s).askingTakes kind sender f) := by
  rw [exec_handoff_eq hslot hinbox]
  simp [State.handOn, hknown, popped, hst, hwhole]

end

/-! ## LISTENING (R107) -/

theorem tag_ne_of_lt {a b : Byte} (h : a < b) : a ≠ b := fun heq => BitVec.lt_irrefl _ (heq ▸ h)

section
variable {kind : FrameKind} {f : Frame} {s : State}

theorem groupHeard_of_lower
    (h : s.ctrl.lowestTag = none ∨ ∃ low, s.ctrl.lowestTag = some low ∧ f.tag < low) :
    s.groupHeard kind f = s.mapCtrl fun c =>
      { c with lowestTag := some f.tag, learnedE := announcedE kind f.body } := by
  rcases h with hnone | ⟨low, hsome, hlt⟩
  · simp [State.groupHeard, State.mapCtrl, hnone]
  · simp [State.groupHeard, State.mapCtrl, hsome, hlt]

theorem groupHeard_of_equal (h : s.ctrl.lowestTag = some f.tag) :
    s.groupHeard kind f = s.mapCtrl fun c =>
      { c with learnedE := if announcedE kind f.body = none then c.learnedE
                           else announcedE kind f.body } := by
  cases he : announcedE kind f.body <;> simp [State.groupHeard, State.mapCtrl, h, he]

theorem groupHeard_of_higher {low : Byte} (h : s.ctrl.lowestTag = some low) (hlt : low < f.tag) :
    s.groupHeard kind f = s := by
  have hnot : ¬ f.tag < low := BitVec.not_lt.2 (BitVec.le_of_lt hlt)
  have hne : f.tag ≠ low := (tag_ne_of_lt hlt).symm
  simp [State.groupHeard, State.mapCtrl, h, hnot, hne]

end

/-! ## FOUNDING (R110, R111) -/

theorem foundGroup_replica {s : State} (tag : Byte) (h : s.table.condition = .absent) :
    (s.foundGroup tag).table =
      { condition := .present, tag := tag, p := s.port.store.p, k := s.port.store.k,
        limits := s.port.store.limits, roster := [s.port.station],
        queues := Vector.replicate 64 [], tseq := 0 } := by
  simp [State.foundGroup, Replica.found, h, State.own]

theorem foundGroup_ctrl {s : State} (tag : Byte) (h : s.table.condition = .absent) :
    (s.foundGroup tag).ctrl.station = .member
      ∧ (s.foundGroup tag).ctrl.founding = s.ctrl.founding + 1
      ∧ (s.foundGroup tag).ctrl.workingE = s.port.store.k * (s.port.store.p * 10)
      ∧ (s.foundGroup tag).ctrl.presence = .running (s.port.store.p * 10) := by
  simp [State.foundGroup, State.restartPresence, State.presenceInterval, State.enter, State.groupE,
    evictionTimeout, Replica.found, h]

theorem foundGroup_notices {s : State} (tag : Byte) (h : s.table.condition = .absent) :
    (s.foundGroup tag).notices = s.notices.post .joined tag := by
  simp [State.foundGroup, Replica.found, h]

theorem withdrawAnnounce_not_owed (s : State) : s.withdrawAnnounce.ctrl.owed.announce = false := by
  unfold State.withdrawAnnounce
  split
  · rfl
  · next h =>
    exact Bool.eq_false_iff.2 fun howed => h (owes_of_cancelKind (o := .announce) howed)

theorem withdrawAnnounce_withdrawn {s : State} (h : s.ctrl.owed.announce = false) :
    Withdrawn .announce s s.withdrawAnnounce := by
  rw [State.withdrawAnnounce, if_neg (by simp [h])]
  exact cancelKind_withdrawn (kind_ne_announce h)

theorem enterAsking_announce_not_owed {s : State} (h : s.ctrl.owed.announce = false) :
    s.enterAsking.ctrl.owed.announce = false :=
  Bool.eq_false_iff.2 (handOut_not_owed .announce (Bool.eq_false_iff.1 h))

theorem Withdrawn.enterAsking {s t : State} (h : Withdrawn .announce s t)
    (hnone : t.ctrl.owed.announce = false) : Withdrawn .announce s t.enterAsking :=
  Withdrawn.handOut h (kind_ne_announce hnone)

/-- A foreign frame taken in FOUNDING, before the entry to ASKING (R111). -/
def foreignHeard (kind : FrameKind) (f : Frame) (s : State) : State :=
  s.withdrawAnnounce.mapCtrl fun c =>
    { c with askedTag := f.tag, learnedE := announcedE kind f.body <|> c.learnedE }

theorem foreignHeard_not_owed (kind : FrameKind) (f : Frame) (s : State) :
    (foreignHeard kind f s).ctrl.owed.announce = false :=
  withdrawAnnounce_not_owed s

theorem foreignHeard_withdrawn (kind : FrameKind) (f : Frame) {s : State}
    (h : s.ctrl.owed.announce = false) : Withdrawn .announce s (foreignHeard kind f s) :=
  withdrawAnnounce_withdrawn h

theorem foreignHeard_learnedE {kind : FrameKind} {f : Frame} {s : State} {n : Nat}
    (h : announcedE kind f.body = some n) : (foreignHeard kind f s).ctrl.learnedE = some n := by
  simp [foreignHeard, h]

theorem foundingTakes_of_own {kind : FrameKind} {f : Frame} {s : State} {sender : Station}
    (h : sender = s.own) :
    s.foundingTakes kind sender f = if kind = .announce then s.foundGroup f.tag else s :=
  if_pos h

theorem foundingTakes_of_foreign {kind : FrameKind} {f : Frame} {s : State} {sender : Station}
    (h : sender ≠ s.own) :
    s.foundingTakes kind sender f = (foreignHeard kind f s).enterAsking :=
  if_neg h

/-! ## ASKING (R115, R116) -/

section
variable {kind : FrameKind} {f : Frame} {s : State} {sender : Station}

theorem withdrawJoinAsk_not_owed (s : State) : s.withdrawJoinAsk.ctrl.owed.joinAsk = false :=
  Bool.eq_false_iff.2 fun howed =>
    Bool.false_ne_true (owes_of_cancelKind (o := .joinAsk) howed)

theorem withdrawJoinAsk_withdrawn (s : State) : Withdrawn .joinAsk s s.withdrawJoinAsk :=
  cancelKind_withdrawn
    (s := s.mapCtrl fun c => { c with owed := { c.owed with joinAsk := false } })
    (kind_ne_joinAsk rfl)

theorem withdrawJoinAsk_ctrl (s : State) :
    s.withdrawJoinAsk.ctrl.workingE = s.ctrl.workingE
      ∧ s.withdrawJoinAsk.ctrl.baseTseq = s.ctrl.baseTseq
      ∧ s.withdrawJoinAsk.ctrl.donorStation = s.ctrl.donorStation := by
  rw [State.withdrawJoinAsk, (State.cancelKind_same _ _).ctrl]
  exact ⟨rfl, rfl, rfl⟩

theorem admitted_joinAsk_withdrawn (sender : Station) (f : Frame) (s : State) :
    (s.admitted sender f).ctrl.owed.joinAsk = false
      ∧ Withdrawn .joinAsk s (s.admitted sender f) := by
  have hnone := withdrawJoinAsk_not_owed
    (s.mapCtrl fun c => { c with baseTseq := f.tseq + 1, donorStation := some sender })
  exact ⟨Bool.eq_false_iff.2 (handOut_not_owed .joinAsk (Bool.eq_false_iff.1 hnone)),
    Withdrawn.handOut (withdrawJoinAsk_withdrawn _) (kind_ne_joinAsk hnone)⟩

theorem admitted_replica (h : s.table = .absent) :
    (s.admitted sender f).table =
      { Replica.absent with
        condition := .pending, tag := f.tag, roster := [s.port.station], tseq := f.tseq + 1 } := by
  have hcondition : Replica.absent.condition = .absent := rfl
  simp [State.admitted, Replica.openCatchup, h, hcondition, State.own]

theorem admitted_ctrl (h : s.table = .absent) :
    (s.admitted sender f).ctrl.station = .catchup
      ∧ (s.admitted sender f).ctrl.baseTseq = f.tseq + 1
      ∧ (s.admitted sender f).ctrl.donorStation = some sender
      ∧ (s.admitted sender f).ctrl.pendingApply = []
      ∧ (s.admitted sender f).ctrl.catchupCount = 0
      ∧ (s.admitted sender f).ctrl.failed = false
      ∧ (s.admitted sender f).ctrl.ask = .stopped
      ∧ (s.admitted sender f).ctrl.stall = .running s.ctrl.workingE
      ∧ (s.admitted sender f).ctrl.presence
        = .running (min (s.port.store.p * 10) (s.ctrl.workingE / 3)) := by
  have hcondition : Replica.absent.condition = .absent := rfl
  simp [State.admitted, State.restartPresence, State.presenceInterval, State.enter,
    Replica.openCatchup, h, hcondition, withdrawJoinAsk_ctrl]

theorem oweJoinAsk_ctrl (s : State) :
    s.oweJoinAsk.ctrl = { s.ctrl with owed := s.oweJoinAsk.ctrl.owed,
                                      evictInHand := s.oweJoinAsk.ctrl.evictInHand } := by
  unfold State.oweJoinAsk
  split
  · rfl
  · exact (State.handOut_same _).ctrl

theorem askLower_ctrl (kind : FrameKind) (f : Frame) (s : State) :
    (s.askLower kind f).ctrl.station = s.ctrl.station
      ∧ (s.askLower kind f).ctrl.askedTag = f.tag ∧ (s.askLower kind f).ctrl.askCount = 1
      ∧ (s.askLower kind f).ctrl.ask = .stopped
      ∧ (s.askLower kind f).ctrl.learnedE = announcedE kind f.body
      ∧ (s.askLower kind f).ctrl.workingE
        = (announcedE kind f.body).getD (s.port.store.k * (s.port.store.p * 10)) := by
  rw [State.askLower, oweJoinAsk_ctrl]
  exact ⟨rfl, rfl, rfl, rfl, rfl, rfl⟩

/-- The ADMIT with the asked tag that names the own station (R116). -/
def AdmitsOwn (kind : FrameKind) (f : Frame) (s : State) : Prop :=
  kind = .admission ∧ f.tag = s.ctrl.askedTag
    ∧ f.body.head? = some (byteOf s.port.station.val)

theorem bind_stationOf_eq_some {c : Option Byte} {x : Station} :
    c.bind stationOf = some x ↔ c = some (byteOf x.val) := by
  constructor
  · intro h
    obtain ⟨b, rfl, hb⟩ := Option.bind_eq_some_iff.1 h
    rw [stationOf_eq_some.1 hb, byteOf_toNat]
  · rintro rfl
    exact stationOf_byteOf x

theorem admitsOwn_iff :
    AdmitsOwn kind f s ↔
      kind = .admission ∧ f.tag = s.ctrl.askedTag ∧ f.body.head?.bind stationOf = some s.own := by
  rw [AdmitsOwn, bind_stationOf_eq_some]
  rfl

theorem askingTakes_of_admitsOwn (h : AdmitsOwn kind f s) :
    s.askingTakes kind sender f = s.admitted sender f :=
  if_pos (admitsOwn_iff.1 h)

theorem askingTakes_of_own (hown : sender = s.own) (h : ¬ AdmitsOwn kind f s) :
    s.askingTakes kind sender f = s :=
  (if_neg (mt admitsOwn_iff.2 h)).trans (if_pos hown)

variable (hforeign : sender ≠ s.own)
include hforeign

theorem askingTakes_of_lower (hlt : f.tag < s.ctrl.askedTag) :
    s.askingTakes kind sender f = s.askLower kind f := by
  have hnot : ¬ AdmitsOwn kind f s := fun ⟨_, heq, _⟩ => tag_ne_of_lt hlt heq
  rw [State.askingTakes, if_neg (mt admitsOwn_iff.2 hnot), if_neg hforeign, if_pos hlt]

theorem askingTakes_of_announced {n : Nat} (heq : f.tag = s.ctrl.askedTag)
    (he : announcedE kind f.body = some n) :
    s.askingTakes kind sender f =
      s.mapCtrl fun c => { c with learnedE := some n, workingE := n } := by
  have hnot : ¬ AdmitsOwn kind f s := by
    rintro ⟨rfl, -, -⟩
    cases he
  rw [State.askingTakes, if_neg (mt admitsOwn_iff.2 hnot), if_neg hforeign,
    if_neg (heq ▸ BitVec.lt_irrefl _), if_pos heq, he]

theorem askingTakes_of_equal (heq : f.tag = s.ctrl.askedTag) (he : announcedE kind f.body = none)
    (hnot : ¬ AdmitsOwn kind f s) : s.askingTakes kind sender f = s := by
  rw [State.askingTakes, if_neg (mt admitsOwn_iff.2 hnot), if_neg hforeign,
    if_neg (heq ▸ BitVec.lt_irrefl _), if_pos heq, he]

theorem askingTakes_of_higher (hlt : s.ctrl.askedTag < f.tag) :
    s.askingTakes kind sender f = s := by
  have hne : f.tag ≠ s.ctrl.askedTag := (tag_ne_of_lt hlt).symm
  have hnot : ¬ AdmitsOwn kind f s := fun ⟨_, heq, _⟩ => hne heq
  rw [State.askingTakes, if_neg (mt admitsOwn_iff.2 hnot), if_neg hforeign,
    if_neg (BitVec.not_lt.2 (BitVec.le_of_lt hlt)), if_neg hne]

end

/-- Settles O36: the frame is handed on by station state, by the rules of each state. -/
theorem handoffWithoutAReplica : Obligations.HandoffWithoutAReplica := by
  refine ⟨?listening, ?founding, ?asking⟩
  case listening =>
    intro f flag rest kind sender s hslot hinbox hst hknown e
    have hshort := exec_handoff_of_short hslot hinbox hknown (.inl hst)
    refine ⟨fun hkind hlen => hshort (shortSnapshot_of_short hkind hlen), fun hwhole => ?_⟩
    rw [exec_handoff_listening hslot hinbox hknown hst (shortSnapshot_of_whole hwhole)]
    refine ⟨fun hlow => ?_, fun heq => ?_, fun low hlow hlt => ?_⟩
    · rw [groupHeard_of_lower (s := popped rest s) hlow]
      rfl
    · rw [groupHeard_of_equal (s := popped rest s) heq]
      rfl
    · rw [groupHeard_of_higher (s := popped rest s) hlow hlt]
      rfl
  case founding =>
    intro f flag rest kind sender s hslot hinbox hst hknown e
    have hshort := exec_handoff_of_short hslot hinbox hknown (.inr (.inl hst))
    have hfounding := exec_handoff_founding hslot hinbox hknown hst
    refine ⟨fun hkind hlen => hshort (shortSnapshot_of_short hkind hlen),
      fun hkind hown habsent => ?_, fun hkind hown => ?_, fun hforeign hwhole => ?_⟩
    · have hwhole : shortSnapshot kind f = false :=
        shortSnapshot_of_whole (.inl (by simp [hkind]))
      rw [hfounding hwhole, foundingTakes_of_own (s := popped rest s) hown, if_pos hkind]
      obtain ⟨hmember, hcounter, hworking, hpresence⟩ :=
        foundGroup_ctrl (s := popped rest s) f.tag habsent
      exact ⟨_, rfl, hmember, foundGroup_replica f.tag habsent, hcounter, hworking, hpresence,
        foundGroup_notices f.tag habsent, by simp [popped]⟩
    · cases hs : shortSnapshot kind f with
      | true => exact hshort hs
      | false =>
        rw [hfounding hs, foundingTakes_of_own (s := popped rest s) hown, if_neg hkind]
        rfl
    · rw [hfounding (shortSnapshot_of_whole hwhole),
        foundingTakes_of_foreign (s := popped rest s) hforeign]
      obtain ⟨hasking, -, htag, hcount, hask, hlearned, hworking⟩ :=
        enterAsking_ctrl (foreignHeard kind f (popped rest s))
      have hnone := foreignHeard_not_owed kind f (popped rest s)
      have hparameters {n : Nat} (he : e = some n) :
          (foreignHeard kind f (popped rest s)).ctrl.learnedE = e :=
        (foreignHeard_learnedE he).trans he.symm
      refine ⟨_, rfl, hasking, htag, hcount, hask, enterAsking_announce_not_owed hnone,
        fun n he => ⟨hlearned.trans (hparameters he), ?_⟩, ?_, fun howed =>
          (foreignHeard_withdrawn kind f (s := popped rest s) howed).enterAsking hnone, ?_⟩
      · rw [hworking, hparameters he, he, Option.getD_some]
      · exact (enterAsking_asks _).imp_right fun ⟨x, hx, hkind, _⟩ => ⟨x, hx, hkind⟩
      · simp [foreignHeard, popped]
  case asking =>
    intro f flag rest kind sender s hslot hinbox hst hknown e admitsOwn
    have hshort := exec_handoff_of_short hslot hinbox hknown (.inr (.inr hst))
    have hasking := exec_handoff_asking hslot hinbox hknown hst
    refine ⟨fun hkind hlen => hshort (shortSnapshot_of_short hkind hlen), fun hadmit habsent => ?_,
      fun hown hnot => ?_, fun hforeign hwhole => ?_⟩
    · obtain ⟨hkind, -, -⟩ := id hadmit
      have hwhole : shortSnapshot kind f = false :=
        shortSnapshot_of_whole (.inl (by simp [hkind]))
      rw [hasking hwhole, askingTakes_of_admitsOwn (s := popped rest s) hadmit]
      obtain ⟨hcatchup, hbase, hdonor, hpending, hcount, hfailed, hask, hstall, hpresence⟩ :=
        admitted_ctrl (s := popped rest s) (f := f) (sender := sender) habsent
      obtain ⟨hnone, hleft, hmarked⟩ := admitted_joinAsk_withdrawn sender f (popped rest s)
      exact ⟨_, rfl, hcatchup, admitted_replica habsent, hbase, hdonor, hpending, hcount, hfailed,
        hask, hstall, hnone, hleft, hmarked, hpresence, by simp [popped]⟩
    · cases hs : shortSnapshot kind f with
      | true => exact hshort hs
      | false =>
        rw [hasking hs, askingTakes_of_own (s := popped rest s) hown hnot]
        rfl
    · rw [hasking (shortSnapshot_of_whole hwhole)]
      refine ⟨fun hlt => ?_, fun n heq he => ?_, fun heq he hnot => ?_, fun hlt => ?_⟩
      · rw [askingTakes_of_lower (s := popped rest s) hforeign hlt]
        obtain ⟨hstation, htag, hcount, hask, hlearned, hworking⟩ :=
          askLower_ctrl kind f (popped rest s)
        exact ⟨_, rfl, hstation.trans hst, htag, hcount, hask, hlearned, hworking,
          oweJoinAsk_owed_or_queued _, by simp [popped]⟩
      · rw [askingTakes_of_announced (s := popped rest s) hforeign heq he]
        rfl
      · rw [askingTakes_of_equal (s := popped rest s) hforeign heq he hnot]
        rfl
      · rw [askingTakes_of_higher (s := popped rest s) hforeign hlt]
        rfl

end Sys2Proof.Machine.GroupForming

/-! What a detach leaves of the line interface and of the records that are not live (R80, R155, R169). -/

namespace Sys2Proof.Machine.GroupForming

@[simp] theorem groupLost_line (s : State) : (groupLost s).line = s.lineFlushed := by
  rw [groupLost, State.loseRecords_line, State.clearGroup_line, flush_eq]
  rfl

theorem afterDetach_of_dead {r : ClaimRecord} (h : r.state.live = false) :
    r.afterDetach = { r with mark := .none } := by
  rw [ClaimRecord.afterDetach, if_neg (Bool.eq_false_iff.1 h)]

theorem detach_record {s : State} (reason : DetachReason) (h : s.CanDetach) (k : RecordIndex) :
    (s.detach reason).records[k] = s.records[k].afterDetach := by
  simp only [detach_eq_groupLost reason h, groupLost_record]

theorem detach_line {s : State} (reason : DetachReason) (h : s.CanDetach) :
    (s.detach reason).line = s.lineFlushed := by
  simp only [detach_eq_groupLost reason h, groupLost_line]

/-- Settles O52: the procedure's parts are those of `detach_eq_groupLost`. -/
theorem detachLeavesAClearedStation : Obligations.DetachLeavesAClearedStation :=
  fun reason _ hcan => ⟨detach_detached reason hcan,
    fun k hdead => (detach_record reason hcan k).trans (afterDetach_of_dead hdead),
    detach_line reason hcan⟩

end Sys2Proof.Machine.GroupForming

/-! The silence timers and the eviction list (R134, R137 to R139): the part of a state that the silence
law speaks of, and what each change of that part does to the law. -/

namespace Sys2Proof.Machine.SilenceTimers

/-! ## What the silence law speaks of -/

/-- The own station, the roster, the silence timers and the eviction list of a state. -/
structure Watch where
  own : Station
  roster : List Station
  silence : Vector (Option SilenceTimer) 32
  evictions : List Station

def watch (s : State) : Watch := ⟨s.own, s.table.roster, s.ctrl.silence, s.ctrl.evictions⟩

/-- The silence law, of what it speaks of. -/
structure Watch.Law (w : Watch) : Prop where
  kept : ∀ x : Station, w.silence[x].isSome = true ↔ x ∈ w.roster ∧ x ≠ w.own
  distinct : w.evictions.Nodup
  expired : ∀ x ∈ w.evictions, w.silence[x] = some .expired

theorem silenceLaw_iff {s : State} : s.SilenceLaw ↔ (watch s).Law :=
  ⟨fun ⟨hkept, hdistinct, hexpired⟩ => ⟨hkept, hdistinct, hexpired⟩,
    fun ⟨hkept, hdistinct, hexpired⟩ => ⟨hkept, hdistinct, hexpired⟩⟩

/-- A timer is written at one station and left at every other. -/
theorem silence_set (v : Vector (Option SilenceTimer) 32) (x y : Station)
    (timer : Option SilenceTimer) : (v.set x timer)[y] = if y = x then timer else v[y] := by
  simp only [Fin.getElem_fin, Vector.getElem_set, Fin.ext_iff, eq_comm]

/-! ## The changes that keep the law -/

section
variable {w : Watch} {x : Station}

theorem Watch.Law.unlist (h : w.Law) (x : Station) :
    Watch.Law { w with evictions := w.evictions.filter fun y => decide (y ≠ x) } where
  kept := h.kept
  distinct := h.distinct.filter _
  expired y hy := h.expired y (List.mem_filter.1 hy).1

/-- A timer that is kept may be set to anything once its station is off the eviction list. -/
theorem Watch.Law.restart (h : w.Law) (hx : w.silence[x].isSome = true) (timer : SilenceTimer) :
    Watch.Law { w with silence := w.silence.set x (some timer),
                       evictions := w.evictions.filter fun y => decide (y ≠ x) } where
  kept y := by
    rw [silence_set]
    split
    · next heq => simpa [heq] using (h.kept x).1 hx
    · exact h.kept y
  distinct := h.distinct.filter _
  expired y hy := by
    obtain ⟨hy, hne⟩ := List.mem_filter.1 hy
    rw [silence_set, if_neg (of_decide_eq_true hne)]
    exact h.expired y hy

/-- A running timer is that of a station that no eviction waits for (R137). -/
theorem Watch.Law.expire (h : w.Law) {n : Nat} (hx : w.silence[x] = some (.running n)) :
    Watch.Law { w with silence := w.silence.set x (some .expired),
                       evictions := w.evictions ++ [x] } where
  kept y := by
    rw [silence_set]
    split
    · next heq => simpa [heq, hx] using h.kept x
    · exact h.kept y
  distinct := by
    have hnot : x ∉ w.evictions := fun hmem => by simpa [hx] using h.expired x hmem
    exact List.nodup_append.2 ⟨h.distinct, List.pairwise_singleton _ x, fun a ha b hb hab =>
      hnot (List.mem_singleton.1 hb ▸ hab ▸ ha)⟩
  expired y hy := by
    rw [silence_set]
    split
    · rfl
    · next hne =>
      exact h.expired y ((List.mem_append.1 hy).resolve_right fun hmem =>
        hne (List.mem_singleton.1 hmem))

/-- The timers all tick, freeze or resume: an EXPIRED one stays so. -/
theorem Watch.Law.mapTimers (h : w.Law) {f : SilenceTimer → SilenceTimer}
    (hf : f .expired = .expired) :
    Watch.Law { w with silence := w.silence.map (Option.map f) } where
  kept y := by simpa using h.kept y
  distinct := h.distinct
  expired y hy := by
    have := h.expired y hy
    simp_all

/-- A new member, with a timer of its own (R134). -/
theorem Watch.Law.add (h : w.Law) (hnew : x ∉ w.roster) (hown : x ≠ w.own) (timer : SilenceTimer) :
    Watch.Law { w with roster := w.roster ++ [x], silence := w.silence.set x (some timer) } where
  kept y := by
    rw [silence_set]
    split
    · next heq => simp [heq, hown]
    · next hne => simpa [hne] using h.kept y
  distinct := h.distinct
  expired y hy := by
    have hexpired := h.expired y hy
    obtain ⟨hmem, -⟩ := (h.kept y).1 (by rw [hexpired]; rfl)
    rw [silence_set, if_neg (ne_of_mem_of_not_mem hmem hnew)]
    exact hexpired

/-- A member gone, with its timer and its place on the eviction list (R134, R138). -/
theorem Watch.Law.remove (h : w.Law) (x : Station) :
    Watch.Law { w with roster := w.roster.filter fun y => decide (y ≠ x),
                       silence := w.silence.set x none,
                       evictions := w.evictions.filter fun y => decide (y ≠ x) } where
  kept y := by
    rw [silence_set]
    split
    · next heq => simp [heq]
    · next hne => simpa [hne] using h.kept y
  distinct := h.distinct.filter _
  expired y hy := by
    obtain ⟨hy, hne⟩ := List.mem_filter.1 hy
    rw [silence_set, if_neg (of_decide_eq_true hne)]
    exact h.expired y hy

/-- No timer and no eviction is kept for a station alone in its roster or without one. -/
theorem Watch.law_of_alone (hroster : ∀ x ∈ w.roster, x = w.own)
    (hsilence : w.silence = Vector.replicate 32 none) (hlist : w.evictions = []) : w.Law where
  kept x := by
    simpa [hsilence] using hroster x
  distinct := hlist ▸ List.nodup_nil
  expired x hx := nomatch (hlist ▸ hx : x ∈ [])

theorem Watch.Law.silence_of_alone (h : w.Law) (hroster : ∀ x ∈ w.roster, x = w.own) :
    w.silence = Vector.replicate 32 none := by
  refine Vector.ext fun i hi => ?_
  have hnone : w.silence[(⟨i, hi⟩ : Station)].isSome ≠ true := fun hsome =>
    let ⟨hmem, hne⟩ := (h.kept ⟨i, hi⟩).1 hsome
    hne (hroster _ hmem)
  simpa using hnone

theorem Watch.Law.evictions_of_alone (h : w.Law) (hroster : ∀ x ∈ w.roster, x = w.own) :
    w.evictions = [] :=
  List.eq_nil_iff_forall_not_mem.2 fun x hx => by
    obtain ⟨hmem, hne⟩ := (h.kept x).1 (by rw [h.expired x hx]; rfl)
    exact hne (hroster x hmem)

/-- The roster of a station alone changes to one that is again of it alone or empty. -/
theorem Watch.Law.stayAlone (h : w.Law) (hroster : ∀ x ∈ w.roster, x = w.own)
    {roster : List Station} (hnew : ∀ x ∈ roster, x = w.own) :
    Watch.Law { w with roster := roster } :=
  law_of_alone hnew (h.silence_of_alone hroster) (h.evictions_of_alone hroster)

end

end Sys2Proof.Machine.SilenceTimers

/-! The operations that leave the silence timers, the eviction list, the roster and the own station as
they are. -/

namespace Sys2Proof.Machine.SilenceTimers

theorem law_of_watch_eq {s t : State} (hs : s.SilenceLaw) (h : watch t = watch s) : t.SilenceLaw :=
  silenceLaw_iff.2 (h ▸ silenceLaw_iff.1 hs)

/-! ## Updates of one block -/

section
variable (s : State)

@[simp] theorem watch_mapLine (f : LineIf → LineIf) : watch (s.mapLine f) = watch s := rfl
@[simp] theorem watch_mapTx (f : Transmitter → Transmitter) : watch (s.mapTx f) = watch s := rfl
@[simp] theorem watch_mapRx (f : Receiver → Receiver) : watch (s.mapRx f) = watch s := rfl
@[simp] theorem watch_mapNotices (f : NoticeQueue → NoticeQueue) :
    watch (s.mapNotices f) = watch s := rfl
@[simp] theorem watch_post (subject : Subject) (detail : Byte) :
    watch (s.post subject detail) = watch s := rfl
@[simp] theorem watch_mapRecord (k : RecordIndex) (f : ClaimRecord → ClaimRecord) :
    watch (s.mapRecord k f) = watch s := rfl
@[simp] theorem watch_changeRecord (k : RecordIndex) (f : ClaimRecord → ClaimRecord) :
    watch (s.changeRecord k f) = watch s := rfl
@[simp] theorem watch_enqueue (e : TxEntry) : watch (s.enqueue e) = watch s := rfl
@[simp] theorem watch_withPending (p : List Instr) : watch (s.withPending p) = watch s := rfl
@[simp] theorem watch_drawn : watch s.drawn = watch s := rfl
@[simp] theorem watch_clock : watch s.clock = watch s := rfl
@[simp] theorem watch_goIdle : watch s.goIdle = watch s := rfl

@[simp] theorem watch_mapPort (f : Port → Port) (h : (f s.port).station = s.port.station) :
    watch (s.mapPort f) = watch s := by
  simp [watch, State.own, h]

/-- A change of the controller that touches neither the silence timers nor the eviction list. -/
@[simp] theorem watch_mapCtrl (f : Controller → Controller)
    (hsilence : ∀ c, (f c).silence = c.silence) (hlist : ∀ c, (f c).evictions = c.evictions) :
    watch (s.mapCtrl f) = watch s := by
  simp [watch, State.own, hsilence, hlist]

end

/-! ## The transmit queue, records and their frames -/

theorem watch_of_takings {s t : State} (h : SameButTakings s t) : watch t = watch s := by
  rw [watch, h.ctrl, h.table, State.own, h.port]
  rfl

section
variable (s : State)

@[simp] theorem watch_handOut : watch s.handOut = watch s := watch_of_takings s.handOut_same

@[simp] theorem watch_cancel (named : TxEntry → Bool) : watch (s.cancel named).1 = watch s :=
  watch_of_takings (s.cancel_same named)

@[simp] theorem watch_cancelKind (kind : FrameKind) : watch (s.cancelKind kind) = watch s :=
  watch_of_takings (s.cancelKind_same kind)

@[simp] theorem watch_enter (st : StationState) : watch (s.enter st) = watch s := by
  simp [State.enter]

@[simp] theorem watch_withdrawQueued (reason : CancelReason) (k : RecordIndex) :
    watch (s.withdrawQueued reason k) = watch s := by
  have hcancel := watch_cancel (s.mapRecord k fun r => { r with waitTimer := none }) (ofRecord k)
  unfold State.withdrawQueued
  dsimp only
  split
  · split <;> simp_all
  · simp
  · simp

@[simp] theorem watch_dropRecord (reason : DropReason) (k : RecordIndex) :
    watch (s.dropRecord reason k) = watch s := by
  simp [State.dropRecord]

@[simp] theorem watch_owePresence : watch s.owePresence = watch s := by
  unfold State.owePresence
  split <;> simp

@[simp] theorem watch_restartPresence : watch s.restartPresence = watch s := by
  simp [State.restartPresence]

@[simp] theorem watch_presenceHeard : watch s.presenceHeard = watch s := by
  unfold State.presenceHeard
  split <;> simp

@[simp] theorem watch_acceptAttempt : watch s.acceptAttempt = watch s := by
  unfold State.acceptAttempt
  split <;> simp

@[simp] theorem watch_beginAttempt (taken : Bool) : watch (s.beginAttempt taken) = watch s := by
  unfold State.beginAttempt
  dsimp only
  split <;> rfl

@[simp] theorem watch_startEdgeEffect : watch s.startEdgeEffect = watch s := by
  unfold State.startEdgeEffect
  split
  · simp
  · split <;> simp

@[simp] theorem watch_charEffect : watch s.charEffect = watch s := by
  unfold State.charEffect
  split <;> simp

@[simp] theorem watch_flush : watch s.flush = watch s := by
  simp [watch, State.own]

@[simp] theorem watch_retireRecord (k : RecordIndex) : watch (s.retireRecord k) = watch s := by
  simp [State.retireRecord]

@[simp] theorem watch_waitEffect (k : RecordIndex) : watch (s.waitEffect k) = watch s := by
  unfold State.waitEffect
  split <;> simp

/-! ## Joining and leaving -/

@[simp] theorem watch_enterListening : watch s.enterListening = watch s := by
  simp [State.enterListening]

@[simp] theorem watch_enterFounding : watch s.enterFounding = watch s := by
  simp [State.enterFounding]

@[simp] theorem watch_enterAsking : watch s.enterAsking = watch s := by
  simp [State.enterAsking]

@[simp] theorem watch_enterOffline : watch s.enterOffline = watch s := by
  simp [State.enterOffline]

@[simp] theorem watch_enterHoldoff : watch s.enterHoldoff = watch s := by
  simp [State.enterHoldoff]

@[simp] theorem watch_reportDetach (reason : DetachReason) :
    watch (s.reportDetach reason) = watch s := by
  simp [State.reportDetach]

@[simp] theorem watch_withdrawAnnounce : watch s.withdrawAnnounce = watch s := by
  unfold State.withdrawAnnounce
  split <;> simp

@[simp] theorem watch_withdrawJoinAsk : watch s.withdrawJoinAsk = watch s := by
  simp [State.withdrawJoinAsk]

@[simp] theorem watch_groupHeard (kind : FrameKind) (f : Frame) :
    watch (s.groupHeard kind f) = watch s := by
  refine watch_mapCtrl s _ (fun c => ?_) fun c => ?_
  · (repeat' split) <;> rfl
  · (repeat' split) <;> rfl

@[simp] theorem watch_oweJoinAsk : watch s.oweJoinAsk = watch s := by
  unfold State.oweJoinAsk
  split <;> simp

@[simp] theorem watch_askLower (kind : FrameKind) (f : Frame) :
    watch (s.askLower kind f) = watch s := by
  simp [State.askLower]

@[simp] theorem watch_holdoffEffect : watch s.holdoffEffect = watch s := by
  simp [State.holdoffEffect]

@[simp] theorem watch_listenEffect : watch s.listenEffect = watch s := by
  unfold State.listenEffect
  dsimp only
  split <;> simp

@[simp] theorem watch_withdrawOnLeaving (k : RecordIndex) :
    watch (s.withdrawOnLeaving k) = watch s := by
  unfold State.withdrawOnLeaving
  split <;> simp

@[simp] theorem watch_withdrawAllOnLeaving (ks : List RecordIndex) :
    watch (ks.foldl State.withdrawOnLeaving s) = watch s := by
  induction ks generalizing s with
  | nil => rfl
  | cons k ks ih => simp [ih]

@[simp] theorem watch_startLeaving : watch s.startLeaving = watch s := by
  simp [State.startLeaving]

/-! ## Donor and catch-up -/

@[simp] theorem watch_admitNext : watch s.admitNext = watch s := by
  unfold State.admitNext
  split
  · split <;> simp
  · rfl

@[simp] theorem watch_takeJoinAsk (j : Station) : watch (s.takeJoinAsk j) = watch s := by
  unfold State.takeJoinAsk
  split <;> simp

@[simp] theorem watch_endDonation (j : Station) : watch (s.endDonation j) = watch s := by
  simp [State.endDonation]

@[simp] theorem watch_takeAdmitResult (effect : Bool) :
    watch (s.takeAdmitResult effect) = watch s := by
  unfold State.takeAdmitResult
  split
  · split <;> simp
  · rfl
  · rfl

@[simp] theorem watch_dropPartReport : watch s.dropPartReport = watch s := by
  simp [State.dropPartReport]

@[simp] theorem watch_partAccepted : watch s.partAccepted = watch s := by
  unfold State.partAccepted
  split
  · simp
  · split
    · split <;> simp
    · rfl
    · rfl

@[simp] theorem watch_donationLost (x : Station) : watch (s.donationLost x) = watch s := by
  unfold State.donationLost
  split
  · split <;> simp
  · split <;> simp
  · rfl

@[simp] theorem watch_catchupFailure : watch s.catchupFailure = watch s := by
  unfold State.catchupFailure
  split <;> simp

@[simp] theorem watch_caughtUp : watch s.caughtUp = watch s := by
  unfold State.caughtUp
  dsimp only
  split <;> simp

@[simp] theorem watch_replayEnd : watch s.replayEnd = watch s := by
  unfold State.replayEnd
  split <;> simp

/-! ## Eviction: what is next, without the list -/

@[simp] theorem watch_nextEvict : watch s.nextEvict = watch s := by
  unfold State.nextEvict
  split <;> simp

@[simp] theorem watch_resolveEvict : watch s.resolveEvict = watch s := by
  simp [State.resolveEvict]

/-! ## Reports about claims -/

@[simp] theorem watch_takeInsertion (k : RecordIndex) (granted : Bool) :
    watch (s.takeInsertion k granted) = watch s := by
  unfold State.takeInsertion
  split
  · simp
  · split <;> simp

@[simp] theorem watch_recordReport (k : RecordIndex) (news : ClaimNews) :
    watch (s.recordReport k news) = watch s := by
  unfold State.recordReport
  split <;> simp

@[simp] theorem watch_takeClaimReport (resource record : Byte) (news : ClaimNews) :
    watch (s.takeClaimReport resource record news) = watch s := by
  unfold State.takeClaimReport
  split
  · split <;> simp
  · rfl

@[simp] theorem watch_takeWithdrawn (kind : FrameKind) (owner : FrameOwner) :
    watch (s.takeWithdrawn kind owner) = watch s := by
  cases owner with
  | claimUnit k =>
    simp only [State.takeWithdrawn]
    split <;> simp
  | controller =>
    cases kind <;> simp only [State.takeWithdrawn, watch_dropPartReport]
    split <;> simp

end

end Sys2Proof.Machine.SilenceTimers

/-! The operations that change the roster, the silence timers or the eviction list, and the silence law
after each. -/

namespace Sys2Proof.Machine.SilenceTimers

/-! ## The roster in each condition (R1, R5) -/

section
variable {own : Station} {t : Replica}

theorem roster_of_absent (h : t.Law own) (hc : t.condition = .absent) : t.roster = [] := by
  have habsent : t = .absent := by simpa [Replica.Law, hc] using h
  rw [habsent]
  rfl

theorem roster_of_pending (h : t.Law own) (hc : t.condition = .pending) : t.roster = [own] := by
  simp only [Replica.Law, hc] at h
  rw [h]

theorem own_mem_roster (h : t.Law own) (hc : t.condition = .present) : own ∈ t.roster := by
  simp only [Replica.Law, hc] at h
  exact h.1

theorem alone_of_not_present (h : t.Law own) (hc : t.condition ≠ .present) :
    ∀ x ∈ t.roster, x = own := by
  intro x hx
  cases hcond : t.condition with
  | absent => simp [roster_of_absent h hcond] at hx
  | pending => simpa [roster_of_pending h hcond] using hx
  | present => exact absurd hcond hc

end

/-! ## Detach and clear (R102, R131, R145) -/

theorem law_of_reset {s : State} (hroster : s.table.roster = [])
    (hsilence : s.ctrl.silence = Vector.replicate 32 none) (hlist : s.ctrl.evictions = []) :
    s.SilenceLaw :=
  silenceLaw_iff.2 (Watch.law_of_alone (fun x hx => nomatch (hroster ▸ hx : x ∈ [])) hsilence hlist)

theorem law_clearGroup {s : State} (hroster : s.table.roster = []) : s.clearGroup.SilenceLaw :=
  law_of_reset (by rw [State.clearGroup_table, hroster]) (by rw [State.clearGroup_ctrl]; rfl)
    (by rw [State.clearGroup_ctrl]; rfl)

theorem detach_of_not_canDetach {s : State} (reason : DetachReason) (h : ¬ s.CanDetach) :
    s.detach reason = s := by
  unfold State.detach
  cases hst : s.ctrl.station <;> simp_all [State.CanDetach]

theorem law_detach_of_canDetach {s : State} (reason : DetachReason) (h : s.CanDetach) :
    (s.detach reason).SilenceLaw := by
  obtain ⟨htable, -, -, hctrl, -⟩ := GroupForming.detach_detached reason h
  exact law_of_reset (by rw [htable]; rfl) (by rw [hctrl]; rfl) (by rw [hctrl]; rfl)

/-- A detach keeps the silence law in every station state: it leaves no timer or changes nothing. -/
theorem law_detach {s : State} (hs : s.SilenceLaw) (reason : DetachReason) :
    (s.detach reason).SilenceLaw := by
  by_cases h : s.CanDetach
  · exact law_detach_of_canDetach reason h
  · rwa [detach_of_not_canDetach reason h]

theorem law_endFailedCatchup {s : State} (hs : s.SilenceLaw) : s.endFailedCatchup.SilenceLaw :=
  law_detach hs _

/-! ## A roster of the own station alone (R27, R28) -/

@[simp] theorem watch_mapTable (s : State) (f : Replica → Replica) :
    watch (s.mapTable f) = { watch s with roster := (f s.table).roster } := rfl

section
variable {s : State}

theorem law_of_watch_alone {t : State} (hs : s.SilenceLaw)
    (hold : ∀ x ∈ s.table.roster, x = s.own) {roster : List Station}
    (hnew : ∀ x ∈ roster, x = s.own) (hw : watch t = { watch s with roster := roster }) :
    t.SilenceLaw :=
  silenceLaw_iff.2 (hw ▸ (silenceLaw_iff.1 hs).stayAlone hold hnew)

theorem law_foundGroup (hs : s.SilenceLaw) (htable : s.table.Law s.own) (tag : Byte) :
    (s.foundGroup tag).SilenceLaw := by
  have hw : watch (s.foundGroup tag)
      = { watch s with roster := (s.table.found s.own tag s.port.store).roster } := by
    simp [State.foundGroup]
  by_cases hc : s.table.condition = .absent
  · refine law_of_watch_alone hs (alone_of_not_present htable (by simp [hc])) ?_ hw
    simp [Replica.found, hc]
  · exact law_of_watch_eq hs (by rw [hw, Replica.found, if_neg hc]; rfl)

theorem law_admitted (hs : s.SilenceLaw) (htable : s.table.Law s.own) (sender : Station)
    (f : Frame) : (s.admitted sender f).SilenceLaw := by
  have hw : watch (s.admitted sender f)
      = { watch s with roster := (s.table.openCatchup s.own f.tag (f.tseq + 1)).roster } := by
    simp [State.admitted, State.own]
  by_cases hc : s.table.condition = .absent
  · refine law_of_watch_alone hs (alone_of_not_present htable (by simp [hc])) ?_ hw
    simp [Replica.openCatchup, hc]
  · exact law_of_watch_eq hs (by rw [hw, Replica.openCatchup, if_neg hc]; rfl)

/-! ## Silence and eviction (R134, R137 to R139) -/

theorem watch_unlist (s : State) (x : Station) : watch (s.unlist x) =
    { watch s with evictions := (watch s).evictions.filter fun y => decide (y ≠ x) } := rfl

/-- A station withdrawn from eviction is off the list, whatever becomes of its EVICT (R138, R139). -/
theorem watch_withdrawEviction (s : State) (x : Station) : watch (s.withdrawEviction x) =
    { watch s with evictions := (watch s).evictions.filter fun y => decide (y ≠ x) } := by
  have hcancel := watch_cancel s (ofKind .evict)
  unfold State.withdrawEviction
  split
  · split
    · exact watch_unlist s x
    · split
      · split
        · rw [watch_resolveEvict, watch_unlist]
        · split
          · next heq => rw [watch_resolveEvict, watch_unlist, ← hcancel, heq]
          · next heq => rw [watch_unlist, ← hcancel, heq]
          · next heq => rw [watch_unlist, ← hcancel, heq]
      · exact watch_unlist s x
  · next hnot =>
    have hsame : ((watch s).evictions.filter fun y => decide (y ≠ x)) = (watch s).evictions :=
      List.filter_eq_self.2 fun y hy => decide_eq_true (ne_of_mem_of_not_mem hy hnot)
    rw [hsame]

theorem law_silenceReport (hs : s.SilenceLaw) (x : Station) : (s.silenceReport x).SilenceLaw := by
  unfold State.silenceReport
  split
  · exact hs
  · next heq =>
    rw [silenceLaw_iff, watch_withdrawEviction]
    exact (silenceLaw_iff.1 hs).restart (x := x) (Option.isSome_of_eq_some heq) _

theorem watch_silenceEffect (s : State) (x : Station) : watch (s.silenceEffect x) =
    { watch s with silence := (watch s).silence.set x (some .expired),
                   evictions := (watch s).evictions ++ [x] } := by
  unfold State.silenceEffect
  dsimp only
  split
  · rw [watch_handOut]
    rfl
  · rfl

theorem law_silenceEffect (hs : s.SilenceLaw) {x : Station}
    (hx : s.ctrl.silence[x] = some (.running 0)) : (s.silenceEffect x).SilenceLaw := by
  rw [silenceLaw_iff, watch_silenceEffect]
  exact (silenceLaw_iff.1 hs).expire hx

theorem watch_startSilence (s : State) (j : Station) : watch (s.startSilence j) =
    { watch s with silence :=
        (watch s).silence.set j (some (.start s.groupE s.ctrl.lineFault)) } := rfl

theorem watch_memberAdded (s : State) (j : Station) :
    watch (s.memberAdded j) = watch (s.startSilence j) := rfl

theorem watch_memberRemoved (s : State) (x : Station) : watch (s.memberRemoved x) =
    { watch s with silence := (watch s).silence.set x none,
                   evictions := (watch s).evictions.filter fun y => decide (y ≠ x) } := by
  rw [State.memberRemoved, watch_donationLost, State.postRoster, watch_post, watch_withdrawEviction]
  rfl

end

end Sys2Proof.Machine.SilenceTimers

/-! Applications and installs: what becomes of the roster, and the silence law after the reports (R7,
R14, R22, R29, R134). -/

namespace Sys2Proof.Machine.SilenceTimers

/-! ## What an application does to the roster (R16 to R22) -/

/-- The report tells of no change of the roster. -/
def keepsRoster : TableReport → Bool
  | .claim _ _ _ | .admitResult _ => true
  | .memberAdded _ | .memberRemoved _ _ | .ownRemoved _ => false

/-- What an application can do to the roster, with the report that tells of it first. -/
inductive RosterChange (own : Station) (t : Replica) : Replica × List TableReport → Prop
  | none {u : Replica} {rs : List TableReport} (roster : u.roster = t.roster)
      (rest : ∀ r ∈ rs, keepsRoster r = true) : RosterChange own t (u, rs)
  | added {u : Replica} {rs : List TableReport} {j : Station} (new : j ∉ t.roster)
      (roster : u.roster = t.roster ++ [j]) (rest : ∀ r ∈ rs, keepsRoster r = true) :
      RosterChange own t (u, .memberAdded j :: rs)
  | removed {u : Replica} {rs : List TableReport} {x : Station} {how : Removal}
      (roster : u.roster = t.roster.filter fun y => decide (y ≠ x))
      (rest : ∀ r ∈ rs, keepsRoster r = true) :
      RosterChange own t (u, .memberRemoved x how :: rs)
  | ownRemoved (how : Removal) : RosterChange own t (.absent, [.ownRemoved how])

section
variable (own s : Station) (t : Replica)

theorem ownReport_keepsRoster (r k : Byte) (news : ClaimNews) :
    ∀ x ∈ ownReport own s r k news, keepsRoster x = true := by
  intro x hx
  obtain ⟨-, rfl⟩ : s = own ∧ x = .claim r k news := by simpa [ownReport] using hx
  rfl

theorem promotions_keepsRoster (r : Resource) (old new : List Entry) :
    ∀ x ∈ promotions own r old new, keepsRoster x = true := by
  intro x hx
  obtain ⟨e, -, rfl⟩ := List.mem_map.1 hx
  rfl

theorem rosterChange_advance : RosterChange own t (t.advance, []) :=
  .none rfl (List.forall_mem_nil _)

theorem rosterChange_applyClaim (rc kc flags : Byte) :
    RosterChange own t (t.applyClaim own s rc kc flags) := by
  unfold Replica.applyClaim
  dsimp only
  split
  · exact .none rfl (ownReport_keepsRoster own s _ _ _)
  · split
    · exact .none rfl (ownReport_keepsRoster own s _ _ _)
    · exact rosterChange_advance own t

theorem rosterChange_applyDrop (rc kc : Byte) : RosterChange own t (t.applyDrop own s rc kc) := by
  unfold Replica.applyDrop
  split
  · dsimp only
    split
    · exact .none rfl (List.forall_mem_append.2
        ⟨ownReport_keepsRoster own s _ _ _, promotions_keepsRoster own _ _ _⟩)
    · exact .none rfl (ownReport_keepsRoster own s _ _ _)
  · exact .none rfl (ownReport_keepsRoster own s _ _ _)

theorem rosterChange_applyRemoval (how : Removal) :
    RosterChange own t (t.applyRemoval own s how) := by
  unfold Replica.applyRemoval
  split
  · exact .ownRemoved how
  · unfold Replica.removeMember
    split
    · refine .removed rfl fun r hr => ?_
      obtain ⟨k, -, hr⟩ := List.mem_flatMap.1 hr
      exact promotions_keepsRoster own _ _ _ r hr
    · exact rosterChange_advance own t

theorem admitResult_keepsRoster (effect : Bool) :
    ∀ x ∈ (if s = own then [TableReport.admitResult effect] else []), keepsRoster x = true := by
  intro x hx
  obtain ⟨-, rfl⟩ : s = own ∧ x = .admitResult effect := by simpa using hx
  rfl

theorem rosterChange_applyAdmit (jc : Byte) : RosterChange own t (t.applyAdmit own s jc) := by
  unfold Replica.applyAdmit
  dsimp only
  split
  · split
    · next h => exact .added h.1 rfl (admitResult_keepsRoster own s true)
    · exact .none rfl (admitResult_keepsRoster own s false)
  · exact .none rfl (admitResult_keepsRoster own s false)

/-- Every application changes the roster in one of the ways of `RosterChange`. -/
theorem rosterChange_apply (f : Frame) : RosterChange own t (t.apply own f) := by
  unfold Replica.apply
  split
  · split
    · exact rosterChange_applyClaim own _ t _ _ _
    · exact rosterChange_advance own t
  · split
    · exact rosterChange_applyDrop own _ t _ _
    · exact rosterChange_advance own t
  · split
    · split
      · exact rosterChange_applyRemoval own _ t _
      · exact rosterChange_advance own t
    · exact rosterChange_advance own t
  · exact rosterChange_applyRemoval own _ t _
  · split
    · exact rosterChange_applyAdmit own _ t _
    · exact rosterChange_advance own t
  all_goals exact .none rfl (List.forall_mem_nil _)

end

/-! ## The reports taken -/

theorem watch_takeTableReport (s : State) {r : TableReport} (h : keepsRoster r = true) :
    watch (s.takeTableReport r) = watch s := by
  cases r with
  | claim resource record news => exact watch_takeClaimReport s resource record news
  | admitResult effect => exact watch_takeAdmitResult s effect
  | _ => exact nomatch h

theorem watch_takeTableReports {rs : List TableReport} (s : State)
    (h : ∀ r ∈ rs, keepsRoster r = true) : watch (rs.foldl State.takeTableReport s) = watch s := by
  induction rs generalizing s with
  | nil => rfl
  | cons r rs ih =>
    obtain ⟨hr, hrs⟩ := List.forall_mem_cons.1 h
    rw [List.foldl_cons, ih _ hrs, watch_takeTableReport s hr]

/-- The replica of `s` and its reports after an application in PRESENT, taken in order. -/
theorem law_of_rosterChange {s : State} (hs : s.SilenceLaw) (hown : s.own ∈ s.table.roster)
    (hcan : s.CanDetach) {result : Replica × List TableReport}
    (h : RosterChange s.own s.table result) :
    (result.2.foldl State.takeTableReport { s with table := result.1 }).SilenceLaw := by
  have hlaw := silenceLaw_iff.1 hs
  have hwatch (u : Replica) :
      watch { s with table := u } = { watch s with roster := u.roster } := rfl
  cases h with
  | none roster rest =>
    refine law_of_watch_eq hs ?_
    rw [watch_takeTableReports _ rest, hwatch, roster]
    rfl
  | added new roster rest =>
    rw [silenceLaw_iff, List.foldl_cons, watch_takeTableReports _ rest, State.takeTableReport,
      watch_memberAdded, watch_startSilence, hwatch, roster]
    exact hlaw.add new (ne_of_mem_of_not_mem hown new).symm _
  | @removed u rs x how roster rest =>
    rw [silenceLaw_iff, List.foldl_cons, watch_takeTableReports _ rest, State.takeTableReport,
      watch_memberRemoved, hwatch, roster]
    exact hlaw.remove x
  | ownRemoved how => exact law_detach_of_canDetach (s := { s with table := .absent }) _ hcan

theorem law_applyFrame {s : State} (hs : s.SilenceLaw) (htable : s.table.Law s.own)
    (hcan : s.table.condition = .present → s.CanDetach) (f : Frame) :
    (s.applyFrame f).SilenceLaw := by
  unfold State.applyFrame
  split
  · next hc =>
    exact law_of_rosterChange hs (own_mem_roster htable hc) (hcan hc) (rosterChange_apply _ _ f)
  · exact hs

/-! ## The install (R29, R125, R134) -/

theorem pending_of_install {own : Station} {image : List Byte} {tseq : Tseq} {t u : Replica}
    (h : t.install own image tseq = some u) : t.condition = .pending := by
  unfold Replica.install at h
  split at h
  · next hc => exact hc.1
  · exact nomatch h

/-- The timers of new members: theirs, and those that were kept already. -/
theorem startSilences_silence (xs : List Station) (s : State) (y : Station) :
    (xs.foldl State.startSilence s).ctrl.silence[y].isSome = true
      ↔ y ∈ xs ∨ s.ctrl.silence[y].isSome = true := by
  induction xs generalizing s with
  | nil => simp
  | cons x xs ih =>
    have hset : (s.startSilence x).ctrl.silence[y].isSome = true
        ↔ y = x ∨ s.ctrl.silence[y].isSome = true := by
      rw [State.startSilence, State.mapCtrl_ctrl, silence_set]
      split
      · next heq => simp [heq]
      · next hne => simp [hne]
    rw [List.foldl_cons, ih, hset, List.mem_cons, or_left_comm, or_assoc]

theorem startSilences_evictions (xs : List Station) (s : State) :
    (xs.foldl State.startSilence s).ctrl.evictions = s.ctrl.evictions := by
  induction xs generalizing s with
  | nil => rfl
  | cons x xs ih => exact ih (s.startSilence x)

/-- A station alone takes the roster of its donor and starts a timer for each other member. -/
theorem law_startSilences {s : State} (hs : s.SilenceLaw)
    (halone : ∀ x ∈ s.table.roster, x = s.own) (u : Replica) :
    ((u.roster.filter fun x => decide (x ≠ s.own)).foldl State.startSilence
      { s with table := u }).SilenceLaw := by
  generalize hothers : (u.roster.filter fun x => decide (x ≠ s.own)) = others
  have hnone : s.ctrl.silence = Vector.replicate 32 none :=
    (silenceLaw_iff.1 hs).silence_of_alone halone
  have hlist := (startSilences_evictions others { s with table := u }).trans
    ((silenceLaw_iff.1 hs).evictions_of_alone halone)
  obtain ⟨-, -, -, -, htable, -, -, hport, -⟩ :=
    State.startSilences_untouched { s with table := u } others
  refine ⟨fun x => ?_, hlist ▸ List.nodup_nil, fun x hx => nomatch (hlist ▸ hx : x ∈ [])⟩
  have hown : (others.foldl State.startSilence { s with table := u }).own = s.own :=
    congrArg Port.station hport
  rw [startSilences_silence, htable, hown, ← hothers, List.mem_filter, decide_eq_true_iff]
  exact or_iff_left (by simp [hnone])

/-- What follows the silence timers in an install (R125, R127, R132). -/
def endInstall (s : State) : State :=
  let t := (s.postRoster.mapCtrl fun c =>
    { c with snapshot := .empty, workingE := s.postRoster.groupE,
             configDiffers := s.postRoster.differsFromStore }).restartPresence
  if t.ctrl.pendingApply.isEmpty then t.caughtUp else t

theorem watch_endInstall (s : State) : watch (endInstall s) = watch s := by
  unfold endInstall
  dsimp only
  split <;> simp [State.postRoster]

/-- The two outcomes of an install request. -/
theorem install_eq (s : State) (tseq : Tseq) :
    s.install tseq = match s.table.install s.own s.ctrl.snapshot.image tseq with
      | none => (s.mapCtrl fun c => { c with stall := .stopped }).catchupFailure
      | some u => endInstall ((u.roster.filter fun x => decide (x ≠ s.own)).foldl State.startSilence
          { s.mapCtrl fun c => { c with stall := .stopped } with table := u }) := rfl

theorem law_install {s : State} (hs : s.SilenceLaw) (htable : s.table.Law s.own) (tseq : Tseq) :
    (s.install tseq).SilenceLaw := by
  have hstopped : (s.mapCtrl fun c => { c with stall := .stopped }).SilenceLaw :=
    law_of_watch_eq hs (by simp)
  rw [install_eq]
  split
  · exact law_of_watch_eq hstopped (watch_catchupFailure _)
  · next u heq =>
    have halone := alone_of_not_present htable (by simp [pending_of_install heq])
    exact law_of_watch_eq (law_startSilences hstopped halone u) (watch_endInstall _)

end Sys2Proof.Machine.SilenceTimers

/-! The silence law after the events of the line interface, the receiver and the owners of frames
(chapters 3 to 7). -/

namespace Sys2Proof.Machine.SilenceTimers

variable {s : State}

/-! ## Line interface and receiver -/

theorem law_endAttempt (hs : s.SilenceLaw) (failed : Bool) : (s.endAttempt failed).SilenceLaw := by
  unfold State.endAttempt
  split
  · exact hs
  · split
    · exact law_detach (law_of_watch_eq hs (watch_flush s)) _
    · dsimp only
      split <;> exact law_of_watch_eq hs (by simp)

theorem law_breakEffect (hs : s.SilenceLaw) : s.breakEffect.SilenceLaw := by
  unfold State.breakEffect
  split
  case h_1 | h_2 => exact law_endAttempt (law_of_watch_eq hs (watch_mapLine s _)) _
  all_goals exact law_of_watch_eq hs (watch_mapLine s _)

theorem law_windowCloseEffect (hs : s.SilenceLaw) : s.windowCloseEffect.SilenceLaw := by
  have hclosed := law_of_watch_eq hs (watch_mapLine s LineIf.closeWindow)
  unfold State.windowCloseEffect
  dsimp only
  split
  · split
    · exact law_endAttempt hclosed true
    · exact law_of_watch_eq hclosed (watch_acceptAttempt _)
  · exact hclosed

/-- The silence timers all change by a function that keeps EXPIRED ones so. -/
theorem law_of_mapTimers {t : State} (hs : s.SilenceLaw) {f : SilenceTimer → SilenceTimer}
    (hf : f .expired = .expired)
    (hw : watch t = { watch s with silence := (watch s).silence.map (Option.map f) }) :
    t.SilenceLaw :=
  silenceLaw_iff.2 (hw ▸ (silenceLaw_iff.1 hs).mapTimers hf)

theorem law_lineFaultEffect (hs : s.SilenceLaw) : s.lineFaultEffect.SilenceLaw :=
  law_of_mapTimers hs (f := SilenceTimer.freeze) rfl rfl

theorem law_lineRecoveryEffect (hs : s.SilenceLaw) : s.lineRecoveryEffect.SilenceLaw := by
  have hresumed : ((s.goIdle.mapCtrl Controller.takeRecovery).post .lineRestored 0).SilenceLaw :=
    law_of_mapTimers hs (f := SilenceTimer.resume) rfl rfl
  unfold State.lineRecoveryEffect
  dsimp only
  split
  · exact law_detach hresumed _
  · exact hresumed

theorem law_tickEffect (hs : s.SilenceLaw) : s.tickEffect.SilenceLaw :=
  law_of_mapTimers hs (f := SilenceTimer.tick) rfl rfl

theorem law_takeResult (hs : s.SilenceLaw) (clean : Bool) : (s.takeResult clean).SilenceLaw := by
  have htaken := law_of_watch_eq hs
    (watch_mapRx s fun r => { r with inbox := inboxResult clean r.inbox })
  unfold State.takeResult
  dsimp only
  split
  · exact law_detach htaken _
  · exact htaken

theorem law_takeItem (hs : s.SilenceLaw) (x : StreamItem) : (s.takeItem x).SilenceLaw := by
  cases x with
  | result clean => exact law_takeResult hs clean
  | opening => exact hs
  | _ => exact law_of_watch_eq hs (watch_mapRx s _)

theorem law_takeItems (xs : List StreamItem) (hs : s.SilenceLaw) :
    (xs.foldl State.takeItem s).SilenceLaw := by
  induction xs generalizing s with
  | nil => exact hs
  | cons x xs ih => exact ih (law_takeItem hs x)

theorem law_takeHead (hs : s.SilenceLaw) : s.takeHead.SilenceLaw := by
  unfold State.takeHead
  split
  · exact law_takeItem (law_of_watch_eq hs (watch_mapLine s _)) _
  · exact hs

theorem law_countVeto (hs : s.SilenceLaw) (decision : Option VetoKind) :
    (s.countVeto decision).SilenceLaw := by
  unfold State.countVeto
  split
  · exact law_of_watch_eq hs (watch_mapRx s _)
  · exact law_of_watch_eq hs (watch_owePresence s)
  · have hcounted := law_of_watch_eq hs
      (watch_mapRx s fun r => { r with ownVetoes := r.ownVetoes + 1 })
    dsimp only
    split
    · exact law_detach hcounted _
    · exact hcounted

theorem law_answerOpening (hs : s.SilenceLaw) (a : Assembly) : (s.answerOpening a).SilenceLaw := by
  unfold State.answerOpening
  dsimp only
  refine law_of_watch_eq (law_countVeto (law_of_watch_eq hs ?_) _)
    ((watch_mapRx _ _).trans (watch_mapRx _ _))
  rfl

theorem law_openingEffect (hs : s.SilenceLaw) : s.openingEffect.SilenceLaw := by
  have htaken : s.takeUpToOpening.SilenceLaw :=
    law_takeItems _ (law_of_watch_eq hs (watch_mapLine s _))
  unfold State.openingEffect
  dsimp only
  split
  · exact law_answerOpening htaken _
  · exact htaken

/-! ## Handoff and application (R94 to R101, R14) -/

theorem law_foundingTakes (hs : s.SilenceLaw) (htable : s.table.Law s.own) (kind : FrameKind)
    (sender : Station) (f : Frame) : (s.foundingTakes kind sender f).SilenceLaw := by
  unfold State.foundingTakes
  split
  · split
    · exact law_foundGroup hs htable _
    · exact hs
  · exact law_of_watch_eq hs (by simp)

theorem law_askingTakes (hs : s.SilenceLaw) (htable : s.table.Law s.own) (kind : FrameKind)
    (sender : Station) (f : Frame) : (s.askingTakes kind sender f).SilenceLaw := by
  unfold State.askingTakes
  split
  · exact law_admitted hs htable sender f
  · split
    · exact hs
    · split
      · exact law_of_watch_eq hs (watch_askLower s kind f)
      · split
        · split
          · exact law_of_watch_eq hs (by simp)
          · exact hs
        · exact hs

theorem law_placePending (hs : s.SilenceLaw) (kind : FrameKind) (sender : Station) (f : Frame) :
    (s.placePending kind sender f).SilenceLaw := by
  have hcounted : (s.mapCtrl fun c => { c with catchupCount := c.catchupCount + 1 }).SilenceLaw :=
    law_of_watch_eq hs (by simp)
  unfold State.placePending
  dsimp only
  split
  · split
    · exact law_endFailedCatchup hcounted
    · exact hcounted
  · split
    · exact law_of_watch_eq hcounted (watch_catchupFailure _)
    · split <;> exact law_of_watch_eq hcounted (by simp)

theorem law_takePart (hs : s.SilenceLaw) (htable : s.table.Law s.own) (sender : Station)
    (f : Frame) : (s.takePart sender f).SilenceLaw := by
  unfold State.takePart
  split
  · split
    · split
      · dsimp only
        split
        · refine law_install ?_ ?_ _
          · exact law_of_watch_eq hs (by simp)
          · exact htable
        · exact law_of_watch_eq hs (by simp)
      · exact law_of_watch_eq hs (watch_catchupFailure s)
    · exact hs
  · exact hs

theorem law_toRecipient (hs : s.SilenceLaw) (htable : s.table.Law s.own) (kind : FrameKind)
    (sender : Station) (f : Frame) : (s.toRecipient kind sender f).SilenceLaw := by
  have hsequenced : (if s.ctrl.station = .catchup then s.placePending kind sender f
      else if sender ∈ s.table.roster then s.mapRx fun r => { r with handoff := some f }
      else s).SilenceLaw := by
    split
    · exact law_placePending hs kind sender f
    · split
      · exact law_of_watch_eq hs (watch_mapRx s _)
      · exact hs
  cases kind with
  | claim | drop | evict | leave | admission => exact hsequenced
  | snapshot =>
    unfold State.toRecipient
    dsimp only
    split
    · exact law_takePart hs htable sender f
    · exact hs
  | joinAsk => exact law_of_watch_eq hs (watch_takeJoinAsk s sender)
  | announce | presence => exact hs

theorem law_checked (hs : s.SilenceLaw) (htable : s.table.Law s.own) (kind : FrameKind)
    (sender : Station) (f : Frame) : (s.checked kind sender f).SilenceLaw := by
  have hheard := law_silenceReport hs sender
  have htable' : (s.silenceReport sender).table.Law (s.silenceReport sender).own := by
    simpa [State.own] using htable
  have hpresence : (s.silenceReport sender).owePresence.table.Law
      (s.silenceReport sender).owePresence.own := by
    simpa [State.own] using htable
  unfold State.checked
  split
  · exact law_detach hs _
  · split
    · exact hs
    · dsimp only
      split
      · split
        · exact law_detach hheard _
        · exact law_toRecipient (law_of_watch_eq hheard (watch_owePresence _)) hpresence _ _ _
      · exact law_toRecipient hheard htable' _ _ _

theorem law_handOn (hs : s.SilenceLaw) (htable : s.table.Law s.own) (f : Frame) :
    (s.handOn f).SilenceLaw := by
  unfold State.handOn
  split
  · exact hs
  · next kind sender _ =>
    split
    · exact hs
    · exact hs
    · split
      · exact hs
      · exact law_of_watch_eq hs (watch_groupHeard s kind f)
    · split
      · exact hs
      · exact law_foundingTakes hs htable kind sender f
    · split
      · exact hs
      · exact law_askingTakes hs htable kind sender f
    all_goals exact law_checked hs htable kind sender f

theorem law_handoffEffect (hs : s.SilenceLaw) (htable : s.table.Law s.own) :
    s.handoffEffect.SilenceLaw := by
  unfold State.handoffEffect
  split
  · exact law_handOn (law_of_watch_eq hs (watch_mapRx s _)) htable _
  · exact hs

theorem law_applicationEffect (hs : s.SilenceLaw) (htable : s.table.Law s.own)
    (hcan : s.table.condition = .present → s.CanDetach) : s.applicationEffect.SilenceLaw := by
  unfold State.applicationEffect
  split
  · exact law_applyFrame (law_of_watch_eq hs (watch_mapRx s _)) htable hcan _
  · exact hs

/-! ## Owners of frames (R76, R126) -/

theorem law_controllerAccepted (hs : s.SilenceLaw) (htable : s.table.Law s.own)
    (kind : FrameKind) : (s.controllerAccepted kind).SilenceLaw := by
  unfold State.controllerAccepted
  split
  · split
    · exact law_foundGroup hs htable _
    · exact hs
  · split
    · exact law_of_watch_eq hs (by simp)
    · exact hs
  · exact law_of_watch_eq hs (watch_partAccepted s)
  · split
    · next x _ _ =>
      rw [silenceLaw_iff, watch_resolveEvict, watch_unlist]
      exact (silenceLaw_iff.1 hs).unlist x
    · exact hs
  · split
    · exact law_detach hs _
    · split
      · exact law_endFailedCatchup hs
      · exact hs
    all_goals exact hs
  all_goals exact hs

theorem law_takeAccepted (hs : s.SilenceLaw) (htable : s.table.Law s.own) (kind : FrameKind)
    (owner : FrameOwner) : (s.takeAccepted kind owner).SilenceLaw := by
  have htable' : s.presenceHeard.table.Law s.presenceHeard.own := by
    simpa [State.own] using htable
  cases owner with
  | claimUnit k => exact law_of_watch_eq hs (by simp [State.takeAccepted])
  | controller =>
    exact law_controllerAccepted (law_of_watch_eq hs (watch_presenceHeard s)) htable' kind

theorem law_reportEffect (hs : s.SilenceLaw) (htable : s.table.Law s.own) (path : ReportPath) :
    (s.reportEffect path).SilenceLaw := by
  unfold State.reportEffect
  split
  · next report _ =>
    have hpopped := law_of_watch_eq hs (watch_mapTx s (Transmitter.popReport path))
    cases report with
    | accepted kind owner => exact law_takeAccepted hpopped htable kind owner
    | withdrawn kind owner => exact law_of_watch_eq hpopped (watch_takeWithdrawn _ kind owner)
  · exact hs

theorem law_replayFrame (hs : s.SilenceLaw) (htable : s.table.Law s.own)
    (hcan : s.table.condition = .present → s.CanDetach) (f : Frame) :
    (s.replayFrame f).SilenceLaw := by
  unfold State.replayFrame
  split
  · split
    · exact hs
    · split
      · exact law_of_watch_eq hs (watch_catchupFailure s)
      · exact law_applyFrame hs htable hcan f
  · exact hs

theorem law_replayEffect (hs : s.SilenceLaw) (htable : s.table.Law s.own)
    (hcan : s.table.condition = .present → s.CanDetach) : s.replayEffect.SilenceLaw := by
  unfold State.replayEffect
  split
  · next f rest _ =>
    have hcounted : (s.mapCtrl fun c =>
        { c with pendingApply := rest, catchupCount := c.catchupCount - 1 }).SilenceLaw :=
      law_of_watch_eq hs (by simp)
    exact law_of_watch_eq (law_replayFrame hcounted htable hcan f) (watch_replayEnd _)
  · exact hs

/-! ## Expiries (R114, R124, R129, R132) -/

theorem law_askEffect (hs : s.SilenceLaw) (hroster : s.table.roster = []) :
    s.askEffect.SilenceLaw := by
  unfold State.askEffect
  split
  · exact law_of_watch_eq hs (by simp)
  · exact law_of_watch_eq (law_clearGroup hroster) (by simp [State.askFailed])

theorem law_stallEffect (hs : s.SilenceLaw) : s.stallEffect.SilenceLaw := by
  have hstopped : (s.mapCtrl fun c => { c with stall := .stopped }).SilenceLaw :=
    law_of_watch_eq hs (by simp)
  unfold State.stallEffect
  dsimp only
  split
  · exact law_endFailedCatchup hstopped
  · exact law_of_watch_eq hstopped (watch_catchupFailure _)

end Sys2Proof.Machine.SilenceTimers

/-! The silence law after the commands of the port, and after every step. -/

namespace Sys2Proof.Machine.SilenceTimers

variable {s t : State}

/-! ## Claims and their reports (R153, R161, R198) -/

theorem watch_takeReport_of_claimUnit (s : State) {r : TxReport} {k : RecordIndex}
    (h : r.owner = .claimUnit k) : watch (s.takeReport r) = watch s := by
  cases r with
  | accepted kind owner =>
    cases h
    simp [State.takeReport, State.takeAccepted]
  | withdrawn kind owner => exact watch_takeWithdrawn s kind owner

theorem watch_takeReports_of_claimUnit {k : RecordIndex} {rs : List TxReport} (s : State)
    (h : ∀ r ∈ rs, r.owner = .claimUnit k) : watch (rs.foldl State.takeReport s) = watch s := by
  induction rs generalizing s with
  | nil => rfl
  | cons r rs ih =>
    obtain ⟨hr, hrs⟩ := List.forall_mem_cons.1 h
    rw [List.foldl_cons, ih _ hrs, watch_takeReport_of_claimUnit s hr]

@[simp] theorem watch_takeReportsOn (s : State) (k : RecordIndex) :
    watch (s.takeReportsOn k) = watch s := by
  rw [State.takeReportsOn, watch_takeReports_of_claimUnit (k := k), watch_mapTx]
  exact fun r hr => of_decide_eq_true (List.mem_filter.1 hr).2

theorem watch_claimEffect (slot resource flags : Byte) (waitLimit : BitVec 16) (s : State) :
    watch (claimEffect slot resource flags waitLimit s).after = watch s := by
  unfold claimEffect
  split
  · rfl
  · split
    · split
      · rfl
      · split
        · rfl
        · split
          · simp
          · rfl
    · rfl

theorem watch_hostDrop (reason : DropReason) (k : RecordIndex) (s : State) :
    watch (s.hostDrop reason k).after = watch s := by
  unfold State.hostDrop
  split
  · split
    · simp [State.answers]
    · rfl
  all_goals simp [State.answers]

theorem watch_dropEffect (record : Byte) (s : State) :
    watch (dropEffect record s).after = watch s := by
  unfold dropEffect
  split
  · rfl
  · split
    · rfl
    · split
      · split
        · rfl
        · simp [State.answers]
      · exact watch_hostDrop _ _ s
      · exact watch_hostDrop _ _ s
      all_goals rfl

theorem watch_readClaimEffect (record option : Byte) (s : State) :
    watch (readClaimEffect record option s).after = watch s := by
  unfold readClaimEffect
  split
  · rfl
  · dsimp only
    split <;> simp

theorem watch_retireEffect (record : Byte) (s : State) :
    watch (retireEffect record s).after = watch s := by
  unfold retireEffect
  split
  · rfl
  · split
    · exact watch_retireRecord s _
    all_goals rfl

/-! ## The other commands -/

theorem watch_configureEffect (d : BitVec 16) (f : Byte) (timebase : BitVec 16) (p k : Byte)
    (s : State) : watch (configureEffect d f timebase p k s).after = watch s := by
  unfold configureEffect
  split
  · rfl
  · split
    · rfl
    · simp only [State.answers, State.configured]
      split <;> split <;> rfl

theorem watch_defineEffect (resource limit : Byte) (s : State) :
    watch (defineEffect resource limit s).after = watch s := by
  unfold defineEffect
  split
  · rfl
  · split
    · split <;> rfl
    · rfl

theorem watch_joinEffect (s : State) : watch (joinEffect s).after = watch s := by
  unfold joinEffect
  split
  · exact watch_enterListening s
  · rfl

theorem watch_readNoticeEffect (s : State) : watch (readNoticeEffect s).after = watch s := by
  unfold readNoticeEffect
  split <;> rfl

theorem watch_ackNoticeEffect (subject count : Byte) (s : State) :
    watch (ackNoticeEffect subject count s).after = watch s := by
  unfold ackNoticeEffect
  (repeat' split) <;> rfl

theorem watch_readRosterEffect (s : State) : watch (readRosterEffect s).after = watch s := by
  unfold readRosterEffect
  split <;> rfl

theorem watch_readResourceEffect (resource first : Byte) (s : State) :
    watch (readResourceEffect resource first s).after = watch s := by
  unfold readResourceEffect
  split
  · rfl
  · split <;> rfl

theorem watch_repeatEffect (s : State) : watch (repeatEffect s).after = watch s := by
  unfold repeatEffect
  split <;> rfl

/-! ## What the group law gives (R1, R103) -/

theorem tableLaw_of_groupLaw (hg : s.GroupLaw) : s.table.Law s.own :=
  let ⟨_, _, htable, _, _⟩ := hg
  htable

theorem absent_of_groupLaw (hg : s.GroupLaw) (hst : s.ctrl.station.inGroup = false) :
    s.table.condition = .absent := by
  obtain ⟨-, -, -, ⟨hcondition, -⟩, -⟩ := hg
  cases hstation : s.ctrl.station <;> simp_all [StationState.inGroup]

theorem roster_of_groupLaw (hg : s.GroupLaw) (hst : s.ctrl.station.inGroup = false) :
    s.table.roster = [] :=
  roster_of_absent (tableLaw_of_groupLaw hg) (absent_of_groupLaw hg hst)

theorem canDetach_of_inGroup (h : s.ctrl.station.inGroup = true) : s.CanDetach := by
  cases hstation : s.ctrl.station <;> simp_all [StationState.inGroup, State.CanDetach]

theorem canDetach_of_groupLaw (hg : s.GroupLaw) (hc : s.table.condition = .present) :
    s.CanDetach := by
  cases hst : s.ctrl.station.inGroup with
  | true => exact canDetach_of_inGroup hst
  | false => simp [absent_of_groupLaw hg hst] at hc

theorem law_leaveEffect (hs : s.SilenceLaw) (hg : s.GroupLaw) :
    (leaveEffect s).after.SilenceLaw := by
  have hoffline (hst : s.ctrl.station.inGroup = false) :
      s.clearGroup.enterOffline.SilenceLaw :=
    law_of_watch_eq (law_clearGroup (roster_of_groupLaw hg hst)) (watch_enterOffline _)
  unfold leaveEffect
  split
  · exact law_of_watch_eq hs (by simp [State.answers])
  · split
    · exact hs
    · exact law_of_watch_eq hs (by simp [State.answers])
  · exact hs
  case h_8 => exact hs
  all_goals next heq => exact hoffline (by rw [heq]; rfl)

/-! ## Commands and events (R180) -/

theorem law_of_takeCommand {i : Instr} {keep : Option Byte} {effect : State → Effect}
    (hs : s.SilenceLaw) (heffect : (effect s).after.SilenceLaw)
    (h : takeCommand i keep effect s = .next t) : t.SilenceLaw := by
  unfold takeCommand at h
  split at h
  · cases h
    exact law_of_watch_eq heffect (watch_mapPort _ _ (Port.taken_station _ _ _ _))
  · cases h
    refine law_of_watch_eq hs (watch_mapPort _ _ ?_)
    unfold Port.hold
    split <;> rfl

theorem law_of_watch_effect {i : Instr} {keep : Option Byte} {effect : State → Effect}
    (hs : s.SilenceLaw) (heffect : watch (effect s).after = watch s)
    (h : takeCommand i keep effect s = .next t) : t.SilenceLaw :=
  law_of_takeCommand hs (law_of_watch_eq hs heffect) h

theorem law_of_whenDue {due : Bool} {effect : State → State} (hs : s.SilenceLaw)
    (heffect : due = true → (effect s).SilenceLaw)
    (h : whenDue due effect s = .next t) : t.SilenceLaw := by
  cases due with
  | true =>
    cases h
    exact heffect rfl
  | false =>
    cases h
    exact hs

theorem law_of_watch_event {due : Bool} {effect : State → State} (hs : s.SilenceLaw)
    (heffect : watch (effect s) = watch s) (h : whenDue due effect s = .next t) :
    t.SilenceLaw :=
  law_of_whenDue hs (fun _ => law_of_watch_eq hs heffect) h

theorem law_deviceReset (straps : BitVec 5) (auto csLow : Bool) (s : State)
    (h : execDeviceReset straps auto csLow s = .next t) : t.SilenceLaw := by
  have hreset : (s.deviceReset straps.toFin auto csLow).SilenceLaw := law_of_reset rfl rfl rfl
  unfold execDeviceReset at h
  dsimp only at h
  cases h
  split
  · exact law_of_watch_eq hreset (watch_enterListening _)
  · exact hreset

/-! ## The characters of the port leave the straps (R184) -/

theorem openTransaction_station (p : Port) : p.openTransaction.station = p.station := by
  unfold Port.openTransaction
  split <;> rfl

theorem closeTransaction_station (p : Port) : p.closeTransaction.station = p.station := by
  unfold Port.closeTransaction
  split <;> rfl

theorem responseCharacter_station (p : Port) : p.responseCharacter.station = p.station := by
  unfold Port.responseCharacter
  split
  · split <;> rfl
  all_goals rfl

theorem completeCommand_station (i : Instr) (p : Port) :
    (p.completeCommand i).station = p.station := by
  unfold Port.completeCommand
  split <;> rfl

theorem commandCharacter_station (fillers : Nat) (mosi : Byte) (p : Port) :
    (p.commandCharacter fillers mosi).station = p.station := by
  unfold Port.commandCharacter
  dsimp only
  split
  · exact completeCommand_station _ _
  · rfl

theorem law_portCharacter (hs : s.SilenceLaw) (mosi : Byte)
    (h : execPortCharacter mosi s = .next t) : t.SilenceLaw := by
  unfold execPortCharacter at h
  split at h
  · cases h
    exact hs
  · cases h
    refine law_of_watch_eq hs ?_
    simp [watch, State.own, commandCharacter_station]
  · cases h
    exact law_of_watch_eq hs (watch_mapPort _ _ (responseCharacter_station _))

/-! ## Every step -/

theorem law_exec (hg : s.GroupLaw) (hs : s.SilenceLaw) (i : Instr) (h : exec i s = .next t) :
    t.SilenceLaw := by
  have htable := tableLaw_of_groupLaw hg
  have hcan := canDetach_of_groupLaw hg
  cases i with
  | deviceReset straps auto csLow => exact law_deviceReset straps auto csLow s h
  | transactionOpen =>
    cases h
    exact law_of_watch_eq hs (watch_mapPort _ _ (openTransaction_station _))
  | transactionClose =>
    cases h
    exact law_of_watch_eq hs (watch_mapPort _ _ (closeTransaction_station _))
  | portCharacter mosi => exact law_portCharacter hs mosi h
  | configure d f timebase p k =>
    exact law_of_watch_effect hs (watch_configureEffect d f timebase p k s) h
  | defineResource resource limit =>
    exact law_of_watch_effect hs (watch_defineEffect resource limit s) h
  | join => exact law_of_watch_effect hs (watch_joinEffect s) h
  | leave => exact law_of_takeCommand hs (law_leaveEffect hs hg) h
  | claim slot resource flags waitLimit =>
    exact law_of_watch_effect hs (watch_claimEffect slot resource flags waitLimit s) h
  | drop record => exact law_of_watch_effect hs (watch_dropEffect record s) h
  | readClaim record option =>
    exact law_of_watch_effect hs (watch_readClaimEffect record option s) h
  | retire record => exact law_of_watch_effect hs (watch_retireEffect record s) h
  | readNotice => exact law_of_watch_effect hs (watch_readNoticeEffect s) h
  | ackNotice subject count =>
    exact law_of_watch_effect hs (watch_ackNoticeEffect subject count s) h
  | readRoster => exact law_of_watch_effect hs (watch_readRosterEffect s) h
  | readResource resource first =>
    exact law_of_watch_effect hs (watch_readResourceEffect resource first s) h
  | repeatResponse => exact law_of_watch_effect hs (watch_repeatEffect s) h
  | readStatus | unknownCommand _ => exact law_of_watch_effect hs rfl h
  | timebaseTick => exact law_of_whenDue hs (fun _ => law_tickEffect hs) h
  | startEdge => exact law_of_watch_event hs (watch_startEdgeEffect s) h
  | attemptStart => exact law_of_watch_event hs (watch_beginAttempt s false) h
  | characterComplete => exact law_of_watch_event hs (watch_charEffect s) h
  | gapExpiry | lineIdle | vetoDriveEnd | breakDriveEnd | breakEnd =>
    exact law_of_watch_event hs rfl h
  | arbitrationLoss | readbackMismatch =>
    exact law_of_whenDue hs
      (fun _ => law_endAttempt (law_of_watch_eq hs (watch_mapLine s _)) _) h
  | windowClose => exact law_of_whenDue hs (fun _ => law_windowCloseEffect hs) h
  | breakTaken => exact law_of_whenDue hs (fun _ => law_breakEffect hs) h
  | lineFault => exact law_of_whenDue hs (fun _ => law_lineFaultEffect hs) h
  | lineRecovery => exact law_of_whenDue hs (fun _ => law_lineRecoveryEffect hs) h
  | takeCharacter | takeTruncation | takeBreak | windowResult =>
    exact law_of_whenDue hs (fun _ => law_takeHead hs) h
  | windowOpening => exact law_of_whenDue hs (fun _ => law_openingEffect hs) h
  | handoff => exact law_of_whenDue hs (fun _ => law_handoffEffect hs htable) h
  | application => exact law_of_whenDue hs (fun _ => law_applicationEffect hs htable hcan) h
  | acceptedReport path | withdrawnReport path =>
    exact law_of_whenDue hs (fun _ => law_reportEffect hs htable path) h
  | replayStep => exact law_of_whenDue hs (fun _ => law_replayEffect hs htable hcan) h
  | listenTimerExpiry => exact law_of_watch_event hs (watch_listenEffect s) h
  | askTimerExpiry =>
    refine law_of_whenDue hs (fun hdue => law_askEffect hs (roster_of_groupLaw hg ?_)) h
    have hst : s.ctrl.station = .asking := of_decide_eq_true (Bool.and_eq_true_iff.1 hdue).2
    rw [hst]
    rfl
  | stallTimerExpiry => exact law_of_whenDue hs (fun _ => law_stallEffect hs) h
  | presenceTimerExpiry =>
    exact law_of_watch_event hs (by simp [State.presenceEffect]) h
  | silenceTimerExpiry x =>
    exact law_of_whenDue hs (fun hdue => law_silenceEffect hs (of_decide_eq_true hdue)) h
  | holdoffTimerExpiry => exact law_of_watch_event hs (watch_holdoffEffect s) h
  | waitTimerExpiry k => exact law_of_watch_event hs (watch_waitEffect s k) h

/-- The state in which the block takes its own next move: a free value more may have been drawn. -/
theorem nextMove_state (s : State) : s.nextMove.2 = s ∨ s.nextMove.2 = s.drawn := by
  unfold State.nextMove
  split
  · exact .inl rfl
  · exact .inl rfl
  · exact .inr rfl

/-- A move of the block by itself: an event of the part, or a period of the reference clock. -/
theorem law_move (hg : s.GroupLaw) (hs : s.SilenceLaw) (m : Move)
    (h : move (m, s) = .next t) : t.SilenceLaw := by
  cases m with
  | event i => exact law_exec hg hs i h
  | period =>
    cases h
    exact law_of_watch_eq hs (watch_clock s)

/-- Settles O59: each command and event keeps the silence law, and a drawn free value and the queue of
commands do not touch it. -/
theorem silenceLawKept : Obligations.SilenceLawKept := by
  intro s t hg hs h
  unfold step at h
  split at h
  · next rest _ => exact law_exec (s := s.withPending rest) hg hs _ h
  · have hstate := nextMove_state s
    generalize s.nextMove = own at h hstate
    obtain ⟨m, u⟩ := own
    obtain rfl | rfl := hstate
    · exact law_move hg hs m h
    · exact law_move (s := s.drawn) hg hs m h

end Sys2Proof.Machine.SilenceTimers

/-! The taking of a command with its answer, and READ-CLAIM and RETIRE (R166, R167, R180, R196). -/

namespace Sys2Proof.Machine.LocalClaims

variable {s t : State} {k : RecordIndex} {record : Byte}

/-! ## A command taken with its answer (R180, R182) -/

theorem takeCommand_of_effect {i : Instr} {c : Byte} {effect : State → Effect} {status : Status}
    {data : List Byte} (takes : s.Takes i) (he : effect s = ⟨t, status, data⟩) :
    takeCommand i (some c) effect s = .next (t.answered c status data) := by
  rw [takeCommand_of_takes _ _ takes, he]
  rfl

theorem exec_readClaim {option : Byte} {status : Status} {data : List Byte}
    (takes : s.Takes (.readClaim record option))
    (he : readClaimEffect record option s = ⟨t, status, data⟩) :
    exec (.readClaim record option) s = .next (t.answered 0x22 status data) :=
  takeCommand_of_effect takes he

theorem exec_retire {status : Status} {data : List Byte} (takes : s.Takes (.retire record))
    (he : retireEffect record s = ⟨t, status, data⟩) :
    exec (.retire record) s = .next (t.answered 0x23 status data) :=
  takeCommand_of_effect takes he

/-! ## The answer of READ-CLAIM (R196) -/

/-- The flags of R196 stand on different bits, so joining them is adding them. -/
theorem bitFlags_eq_sum : ∀ exclusive noWait marked retired cancelOwed : Bool,
    bitFlag 0 exclusive ||| bitFlag 1 noWait ||| bitFlag 2 marked ||| bitFlag 3 retired
        ||| bitFlag 4 cancelOwed
      = byteOf ((if exclusive then 1 else 0) + (if noWait then 2 else 0)
          + (if marked then 4 else 0) + (if retired then 8 else 0)
          + (if cancelOwed then 16 else 0)) := by
  decide

theorem claimFlagsChar_of_free {r : ClaimRecord} (free : r.state = .free) :
    claimFlagsChar r false = if r.mark = .none then 0 else 4 := by
  unfold claimFlagsChar
  rw [bitFlags_eq_sum]
  by_cases mark : r.mark = .none <;> simp [free, mark, byteOf]

theorem claimFlagsChar_of_held {r : ClaimRecord} (held : r.state ≠ .free) (retired : Bool) :
    claimFlagsChar r retired =
      byteOf ((if r.mode = .exclusive then 1 else 0) + (if r.noWait then 2 else 0)
        + (if r.mark = .none then 0 else 4) + (if retired then 8 else 0)
        + (if r.state = .queued ∧ r.cancelOwed ≠ none then 16 else 0)) := by
  unfold claimFlagsChar
  rw [bitFlags_eq_sum]
  simp [held, Option.isSome_iff_ne_none]

theorem claimData_of_free {r : ClaimRecord} (free : r.state = .free) :
    claimData k r false
      = [byteOf k.val, r.state.code, 0, 0, if r.mark = .none then 0 else 4, 0, 0, 0, 0, 0] := by
  unfold claimData
  rw [claimFlagsChar_of_free free]
  simp [free, claimReasonChar]

theorem claimData_of_held {r : ClaimRecord} (held : r.state ≠ .free) (retired : Bool) :
    claimData k r retired =
      [byteOf k.val, r.state.code, byteOf r.slot.val, byteOf r.resource.val,
       byteOf ((if r.mode = .exclusive then 1 else 0) + (if r.noWait then 2 else 0)
         + (if r.mark = .none then 0 else 4) + (if retired then 8 else 0)
         + (if r.state = .queued ∧ r.cancelOwed ≠ none then 16 else 0)),
       lowByte r.waitLimit, highByte r.waitLimit,
       lowByte (BitVec.ofNat 16 (r.waitTimer.getD 0)),
       highByte (BitVec.ofNat 16 (r.waitTimer.getD 0)), claimReasonChar r] := by
  unfold claimData
  rw [claimFlagsChar_of_held held]
  simp [held]

/-! ## READ-CLAIM and RETIRE (R166, R167) -/

theorem readClaimEffect_of_badRecord {option : Byte} (bad : 31 < record.toNat) :
    readClaimEffect record option s = s.answers .badArgument := by
  simp [readClaimEffect, recordOf_eq_none.2 bad]

theorem readClaimEffect_of_retired {option : Byte} (hk : k.val = record.toNat)
    (bit : option.getLsbD 0 = true) (done : s.records[k].state = .done) :
    readClaimEffect record option s
      = ⟨s.retireRecord k, .ok, claimData k s.records[k] true⟩ := by
  simp only [readClaimEffect, recordOf_eq_some.2 hk, bit, done, decide_true, Bool.and_self, if_true]

theorem readClaimEffect_of_kept {option : Byte} (hk : k.val = record.toNat)
    (kept : option.getLsbD 0 = false ∨ s.records[k].state ≠ .done) :
    readClaimEffect record option s = ⟨s, .ok, claimData k s.records[k] false⟩ := by
  have notRetired : (option.getLsbD 0 && decide (s.records[k].state = .done)) = false := by
    rcases kept with bit | state
    · rw [bit, Bool.false_and]
    · rw [decide_eq_false state, Bool.and_false]
  simp only [readClaimEffect, recordOf_eq_some.2 hk, notRetired, Bool.false_eq_true, if_false]

theorem retireEffect_of_badRecord (bad : 31 < record.toNat) :
    retireEffect record s = s.answers .badArgument := by
  simp [retireEffect, recordOf_eq_none.2 bad]

theorem retireEffect_of_done (hk : k.val = record.toNat) (done : s.records[k].state = .done) :
    retireEffect record s = (s.retireRecord k).answers .ok := by
  simp only [retireEffect, recordOf_eq_some.2 hk, done]

theorem retireEffect_of_free (hk : k.val = record.toNat) (free : s.records[k].state = .free) :
    retireEffect record s = s.answers .already := by
  simp only [retireEffect, recordOf_eq_some.2 hk, free]

theorem retireEffect_of_live (hk : k.val = record.toNat) (live : s.records[k].state.live = true) :
    retireEffect record s = s.answers .wrongState := by
  simp only [retireEffect, recordOf_eq_some.2 hk]
  split <;> simp_all [RecordState.live]

/-- Settles O13: the characters of READ-CLAIM by the record's state, and RETIRE by its branches. -/
theorem recordsReadAndRetired : Obligations.RecordsReadAndRetired := by
  refine ⟨fun record option s takes => ⟨fun bad => ?_, fun k hk => ?_⟩,
    fun record s takes => ⟨fun bad => ?_,
      fun k hk => ⟨fun done => ?_, fun free => ?_, fun live => ?_⟩⟩⟩
  · exact exec_readClaim takes (readClaimEffect_of_badRecord bad)
  · intro r code reason left data
    have index : byteOf k.val = record := by rw [hk, byteOf_toNat]
    have state : r.state.code = code := by cases h : r.state <;> simp only [code, h] <;> rfl
    have why : claimReasonChar r = reason := by
      unfold claimReasonChar
      cases h : r.state with
      | queued => cases hc : r.cancelOwed with
        | none => simp [reason, h, hc]
        | some c => cases c <;> simp [reason, h, hc] <;> rfl
      | dropping => cases hd : r.dropReason with
        | none => simp [reason, h, hd]
        | some d => cases d <;> simp [reason, h, hd] <;> rfl
      | done => cases ho : r.outcome with
        | none => simp [reason, h, ho]
        | some o => cases o <;> simp [reason, h, ho] <;> rfl
      | free | waiting | granted => simp [reason, h]
    have held (retired : Bool) (h : r.state ≠ .free) : claimData k r retired = data retired := by
      rw [claimData_of_held h, index, state, why]
      exact (if_neg h).symm
    refine ⟨fun bit done => ?_, fun kept => ?_⟩
    · rw [← held true (by rw [done]; decide)]
      exact exec_readClaim takes (readClaimEffect_of_retired hk bit done)
    · have answer : claimData k r false = data false := by
        by_cases free : r.state = .free
        · rw [claimData_of_free free, index, state]
          exact (if_pos free).symm
        · exact held false free
      rw [← answer]
      exact exec_readClaim takes (readClaimEffect_of_kept hk kept)
  · exact exec_retire takes (retireEffect_of_badRecord bad)
  · exact exec_retire takes (retireEffect_of_done hk done)
  · exact exec_retire takes (retireEffect_of_free hk free)
  · have live : s.records[k].state.live = true := by
      rcases live with h | h | h | h <;> rw [h] <;> rfl
    exact exec_retire takes (retireEffect_of_live hk live)

end Sys2Proof.Machine.LocalClaims

/-! DROP and the wait timers: a QUEUED claim withdrawn, a record that becomes DROPPING, and what the host
and the timers make of each (R156, R161, R162, R164). -/

namespace Sys2Proof.Machine.LocalClaims

variable {s t : State} {k : RecordIndex} {record : Byte}

theorem mapRecord_mapRecord (s : State) (k : RecordIndex) (f g : ClaimRecord → ClaimRecord) :
    (s.mapRecord k f).mapRecord k g = s.mapRecord k fun r => g (f r) := by
  simp [State.mapRecord]

/-- A change of a record with its notice, written as one update of the state. -/
theorem changeRecord_eq (s : State) (k : RecordIndex) (f : ClaimRecord → ClaimRecord) :
    s.changeRecord k f =
      { s with
        records := s.records.set k (f s.records[k]),
        notices := s.notices.post (.slot (f s.records[k]).slot) (byteOf k.val) } := by
  simp [State.changeRecord, State.mapRecord, State.post, State.mapNotices]

/-! ## A QUEUED claim withdrawn (R162, R164) -/

theorem not_ofRecord_of_owner {l : List TxEntry} (h : ∀ x ∈ l, x.owner ≠ .claimUnit k) :
    ∀ x ∈ l, ofRecord k x = false :=
  fun x hx => decide_eq_false (h x hx)

/-- The entry in flight keeps its place with the cancel mark, and the record owes its cancel (R78). -/
theorem withdrawQueued_of_active {before after : List TxEntry} {e : TxEntry} (reason : CancelReason)
    (mark : s.records[k].mark = .claim) (queue : s.tx.queue = before ++ e :: after)
    (owner : e.owner = .claimUnit k) (first : ∀ x ∈ before, x.owner ≠ .claimUnit k)
    (last : ∀ x ∈ after, x.owner ≠ .claimUnit k) (active : e.state = .active) :
    s.withdrawQueued reason k =
      { s with
        tx := { s.tx with queue := before ++ { e with cancel := true } :: after },
        records := s.records.set k
          { s.records[k] with waitTimer := none, cancelOwed := some reason } } := by
  have cancelled := State.cancel_active (named := ofRecord k)
    (s := s.mapRecord k fun r => { r with waitTimer := none }) queue (not_ofRecord_of_owner first)
    (decide_eq_true owner) active
    fun x hx named => by simp [not_ofRecord_of_owner last x hx] at named
  have start : (s.mapRecord k fun r => { r with waitTimer := none }).records[k].mark = .claim := by
    simpa using mark
  simp only [State.withdrawQueued, start, cancelled]
  simp [State.mapRecord, State.mapTx]

/-- With no frame of the record in the queue only the record changes: it owes its cancel, and no frame
mark stands. -/
theorem withdrawQueued_of_no_frame (reason : CancelReason)
    (noFrame : s.records[k].mark = .none
      ∨ s.records[k].mark = .claim ∧ ∀ x ∈ s.tx.queue, x.owner ≠ .claimUnit k) :
    s.withdrawQueued reason k =
      { s with
        records := s.records.set k
          { s.records[k] with waitTimer := none, cancelOwed := some reason, mark := .none } } := by
  rcases noFrame with mark | ⟨mark, noEntry⟩
  · have start : (s.mapRecord k fun r => { r with waitTimer := none }).records[k].mark = .none := by
      simpa using mark
    simp only [State.withdrawQueued, start]
    rw [mapRecord_mapRecord, State.mapRecord, mark]
  · have start : (s.mapRecord k fun r => { r with waitTimer := none }).records[k].mark = .claim := by
      simpa using mark
    have notQueued := State.cancel_notQueued (named := ofRecord k)
      (s := s.mapRecord k fun r => { r with waitTimer := none }) (not_ofRecord_of_owner noEntry)
    simp only [State.withdrawQueued, start, notQueued]
    exact mapRecord_mapRecord s k _ _

/-! ## A record that becomes DROPPING (R156) -/

/-- The guard of R69: while the queue holds an entry of the record, no owed DROP of it is handed a place. -/
theorem handOut_record_of_entry (entry : ∃ e ∈ s.tx.queue, e.owner = .claimUnit k) :
    s.handOut.records[k] = s.records[k] := by
  refine (State.handOut_induct (P := fun t =>
    (∃ e ∈ t.tx.queue, e.owner = .claimUnit k) ∧ t.records[k] = s.records[k]) s ⟨entry, rfl⟩ ?_).2
  rintro t o ⟨⟨e, he, owner⟩, record⟩ _ next
  refine ⟨⟨e, by simp [State.taking_tx, he], owner⟩, ?_⟩
  obtain ⟨_, _, guard⟩ := State.nextOwed_spec next
  cases o with
  | drop j =>
    have other : j ≠ k := by
      rintro rfl
      simp only [OwedFrame.owner, guardMet, List.all_eq_true, decide_eq_true_eq] at guard
      exact guard e he owner
    have index : (j : Nat) ≠ k := fun h => other (Fin.ext h)
    simpa [State.taking, State.markTaken, index] using record
  | _ => exact record

theorem dropRecord_record (reason : DropReason) (k : RecordIndex) (s : State) :
    (s.dropRecord reason k).records[k].state = .dropping
      ∧ (s.dropRecord reason k).records[k].dropReason = some reason
      ∧ (s.dropRecord reason k).records[k].waitTimer = none := by
  simp [State.dropRecord, ClaimRecord.dropping]

theorem dropRecord_notices (reason : DropReason) (k : RecordIndex) (s : State) :
    (s.dropRecord reason k).notices
      = s.notices.post (.slot s.records[k].slot) (byteOf k.val) := by
  simp [State.dropRecord, ClaimRecord.dropping]

theorem dropRecord_owed_or_queued (reason : DropReason) (k : RecordIndex) (s : State) :
    (s.dropRecord reason k).records[k].owedDrop = true
      ∨ ∃ e ∈ (s.dropRecord reason k).tx.queue, e.kind = .drop ∧ e.owner = .claimUnit k :=
  (State.handOut_owed _ (.drop k) (by simp [State.Owes])).imp_right
    fun ⟨e, he, kind, owner, _⟩ => ⟨e, he, kind, owner⟩

/-- While the record's CLAIM stands in the queue its DROP stays owed. -/
theorem dropRecord_of_entry (reason : DropReason)
    (entry : ∃ e ∈ s.tx.queue, e.owner = .claimUnit k) :
    (s.dropRecord reason k).records[k].owedDrop = true
      ∧ (s.dropRecord reason k).records[k].mark = s.records[k].mark := by
  unfold State.dropRecord
  rw [handOut_record_of_entry (by simpa using entry)]
  simp [ClaimRecord.dropping]

theorem dropRecord_of_full (reason : DropReason) (full : 8 ≤ s.tx.queue.length) :
    s.dropRecord reason k = s.changeRecord k fun r => { r.dropping reason with owedDrop := true } :=
  State.handOut_of_full _ full

/-! ## The DROP of the host (R66, R161, R162) -/

theorem exec_drop {status : Status} {data : List Byte} (takes : s.Takes (.drop record))
    (he : dropEffect record s = ⟨t, status, data⟩) :
    exec (.drop record) s = .next (t.answered 0x21 status data) :=
  takeCommand_of_effect takes he

theorem hostAnswer_of_guarded {kind : FrameKind} (gate : admits s.ctrl.station kind = true)
    (guard : ∀ e ∈ s.tx.queue, e.owner ≠ .claimUnit k) :
    s.hostAnswer kind k = if s.tx.queue.length ≤ 5 then .taken else .full := by
  have met : guardMet s.tx.queue kind (.claimUnit k) = true := by simpa [guardMet] using guard
  simp [State.hostAnswer, gate, met]

theorem hostDrop_of_room (reason : DropReason) (mark : s.records[k].mark = .none)
    (gate : admits s.ctrl.station .drop = true)
    (guard : ∀ e ∈ s.tx.queue, e.owner ≠ .claimUnit k) (room : s.tx.queue.length ≤ 5) :
    s.hostDrop reason k = State.answers
      { s with
        tx := { s.tx with queue := s.tx.queue ++
          [.fresh .drop (.claimUnit k) [byteOf s.records[k].resource.val, byteOf k.val]] },
        records := s.records.set k { s.records[k].dropping reason with mark := .drop },
        notices := s.notices.post (.slot s.records[k].slot) (byteOf k.val) } .ok := by
  simp only [State.hostDrop, mark, hostAnswer_of_guarded gate guard, if_pos room, changeRecord_eq]
  rfl

theorem hostDrop_of_no_room (reason : DropReason) (mark : s.records[k].mark = .none)
    (gate : admits s.ctrl.station .drop = true)
    (guard : ∀ e ∈ s.tx.queue, e.owner ≠ .claimUnit k) (full : 5 < s.tx.queue.length) :
    s.hostDrop reason k = s.answers .queueFull := by
  simp only [State.hostDrop, mark, hostAnswer_of_guarded gate guard, if_neg (Nat.not_le.2 full),
    HostAnswer.status]

theorem hostDrop_of_marked (reason : DropReason) (mark : s.records[k].mark = .claim) :
    s.hostDrop reason k = (s.dropRecord reason k).answers .ok := by
  simp only [State.hostDrop, mark]

theorem admits_drop (gate : s.ctrl.station = .member ∨ s.ctrl.station = .leaving) :
    admits s.ctrl.station .drop = true := by
  rcases gate with h | h <;> rw [h] <;> rfl

theorem dropEffect_of_wrongState (notMember : s.ctrl.station ≠ .member)
    (notLeaving : s.ctrl.station ≠ .leaving) : dropEffect record s = s.answers .wrongState :=
  if_pos ⟨notMember, notLeaving⟩

/-- The station-state check of R161 in the form that the model tests it. -/
theorem not_outside_of_gate (gate : s.ctrl.station = .member ∨ s.ctrl.station = .leaving) :
    ¬ (s.ctrl.station ≠ .member ∧ s.ctrl.station ≠ .leaving) :=
  fun ⟨notMember, notLeaving⟩ => gate.elim notMember notLeaving

theorem dropEffect_of_badRecord (gate : s.ctrl.station = .member ∨ s.ctrl.station = .leaving)
    (bad : 31 < record.toNat) : dropEffect record s = s.answers .badArgument := by
  simp only [dropEffect, if_neg (not_outside_of_gate gate), recordOf_eq_none.2 bad]

section
variable (gate : s.ctrl.station = .member ∨ s.ctrl.station = .leaving) (hk : k.val = record.toNat)
include gate hk

theorem dropEffect_of_queued (queued : s.records[k].state = .queued)
    (owes : s.records[k].cancelOwed = none) :
    dropEffect record s = (s.withdrawQueued .withdrawn k).answers .ok := by
  simp only [dropEffect, if_neg (not_outside_of_gate gate), recordOf_eq_some.2 hk, queued, owes,
    Option.isSome_none, Bool.false_eq_true, if_false]

theorem dropEffect_of_dropped
    (dropped : s.records[k].state = .dropping
      ∨ s.records[k].state = .queued ∧ s.records[k].cancelOwed.isSome = true) :
    dropEffect record s = s.answers .already := by
  simp only [dropEffect, if_neg (not_outside_of_gate gate), recordOf_eq_some.2 hk]
  rcases dropped with dropping | ⟨queued, owes⟩
  · rw [dropping]
  · rw [queued]
    exact if_pos owes

theorem dropEffect_of_ended (ended : s.records[k].state = .done ∨ s.records[k].state = .free) :
    dropEffect record s = s.answers .notActive := by
  simp only [dropEffect, if_neg (not_outside_of_gate gate), recordOf_eq_some.2 hk]
  rcases ended with h | h <;> rw [h]

theorem dropEffect_of_in_table {reason : DropReason}
    (inTable : s.records[k].state = .waiting ∧ reason = .withdrawn
      ∨ s.records[k].state = .granted ∧ reason = .released) :
    dropEffect record s = s.hostDrop reason k := by
  simp only [dropEffect, if_neg (not_outside_of_gate gate), recordOf_eq_some.2 hk]
  rcases inTable with ⟨h, rfl⟩ | ⟨h, rfl⟩ <;> rw [h]

end

/-- Settles O11: the refusals by the record's state, and for a WAITING or GRANTED record the frame mark
decides between the host's DROP frame and an owed one. -/
theorem dropRefusedOrTaken : Obligations.DropRefusedOrTaken := by
  refine ⟨fun record s takes => ⟨fun notMember notLeaving => ?_, fun gate => ⟨fun bad => ?_,
      fun k hk => ⟨fun dropped => ?_, fun ended => ?_, fun inTable mark guard full => ?_⟩⟩⟩,
    fun record k s takes gate hk reason inTable => ?_⟩
  · exact exec_drop takes (dropEffect_of_wrongState notMember notLeaving)
  · exact exec_drop takes (dropEffect_of_badRecord gate bad)
  · exact exec_drop takes (dropEffect_of_dropped gate hk dropped)
  · exact exec_drop takes (dropEffect_of_ended gate hk ended)
  · obtain ⟨reason, inTable⟩ : ∃ reason : DropReason,
        s.records[k].state = .waiting ∧ reason = .withdrawn
          ∨ s.records[k].state = .granted ∧ reason = .released :=
      inTable.elim (fun h => ⟨_, .inl ⟨h, rfl⟩⟩) (fun h => ⟨_, .inr ⟨h, rfl⟩⟩)
    exact exec_drop takes ((dropEffect_of_in_table gate hk inTable).trans
      (hostDrop_of_no_room reason mark (admits_drop gate) guard full))
  · have index : byteOf k.val = record := by rw [hk, byteOf_toNat]
    have effect := dropEffect_of_in_table gate hk inTable
    have owed (mark : s.records[k].mark = .claim) := exec_drop takes
      (effect.trans (hostDrop_of_marked reason mark))
    refine ⟨fun mark guard room => ?_, fun mark entry => ⟨_, owed mark, ?_⟩,
      fun mark guard => ⟨fun full => ?_, fun place law => ?_⟩⟩
    · rw [exec_drop takes (effect.trans (hostDrop_of_room reason mark (admits_drop gate) guard room)),
        index]
      rfl
    · obtain ⟨dropping, why, timer⟩ := dropRecord_record reason k s
      obtain ⟨stillOwed, sameMark⟩ := dropRecord_of_entry reason entry
      have notices := dropRecord_notices reason k s
      rw [index] at notices
      obtain ⟨_, line, rx, table, port, _⟩ := State.dropRecord_untouched s reason k
      exact ⟨congrArg (Port.taken (some 0x21) .ok []) port, dropping, why, timer, stillOwed,
        sameMark.trans mark, notices, line, rx, table⟩
    · rw [owed mark, dropRecord_of_full reason full, changeRecord_eq, ← index]
      rfl
    · rw [owed mark, State.dropRecord_of_owedLaw reason law place gate guard,
        changeRecord_eq, ← index]
      rfl

/-- Settles O12: the withdrawal of a QUEUED claim, by the place of its CLAIM entry. -/
theorem dropOfQueuedClaim : Obligations.DropOfQueuedClaim := by
  intro record k s takes gate hk queued owes
  have index : byteOf k.val = record := by rw [hk, byteOf_toNat]
  have effect := exec_drop takes (dropEffect_of_queued gate hk queued owes)
  refine ⟨fun before e after mark queue owner first =>
    ⟨fun ready => ?_, fun active last => ?_⟩, fun noFrame => ?_⟩
  · rw [effect, State.withdrawQueued_ready .withdrawn mark queue owner first ready, index]
    rfl
  · rw [effect, withdrawQueued_of_active .withdrawn mark queue owner first last active]
  · rw [effect, withdrawQueued_of_no_frame .withdrawn noFrame]

/-! ## The wait timers (R164) -/

theorem exec_waitTimerExpiry (expired : s.records[k].waitTimer = some 0) :
    exec (.waitTimerExpiry k) s = .next (s.waitEffect k) :=
  whenDue_of_due _ s (decide_eq_true expired)

theorem waitEffect_of_waiting (waiting : s.records[k].state = .waiting) :
    s.waitEffect k = s.dropRecord .timedOut k := by
  unfold State.waitEffect
  rw [waiting]

theorem waitEffect_of_queued (queued : s.records[k].state = .queued)
    (owes : s.records[k].cancelOwed = none) :
    s.waitEffect k = s.withdrawQueued .timedOut k := by
  unfold State.waitEffect
  rw [queued, owes]

/-- Settles O51: a WAITING record is dropped, and a QUEUED claim is withdrawn as the host would, with
TIMED-OUT for the reason. -/
theorem waitTimerExpires : Obligations.WaitTimerExpires := by
  intro k s expired
  refine ⟨fun waiting => ⟨s.dropRecord .timedOut k, ?_, ?_⟩, fun queued owes => ?_⟩
  · rw [exec_waitTimerExpiry expired, waitEffect_of_waiting waiting]
  · obtain ⟨dropping, why, timer⟩ := dropRecord_record .timedOut k s
    obtain ⟨_, line, rx, table, _⟩ := State.dropRecord_untouched s .timedOut k
    exact ⟨dropping, why, timer, dropRecord_owed_or_queued .timedOut k s,
      dropRecord_notices .timedOut k s, table, rx, line⟩
  · have effect := (exec_waitTimerExpiry expired).trans
      (congrArg _ (waitEffect_of_queued queued owes))
    refine ⟨fun mark => ?_, fun mark noEntry => ?_, fun before e after mark queue owner others => ?_⟩
    · rw [effect, withdrawQueued_of_no_frame .timedOut (.inl mark), ← mark]
    · rw [effect, withdrawQueued_of_no_frame .timedOut (.inr ⟨mark, noEntry⟩)]
    · obtain ⟨first, last⟩ := List.forall_mem_append.1 others
      refine ⟨fun ready => ?_, fun active => ?_⟩
      · rw [effect, State.withdrawQueued_ready .timedOut mark queue owner first ready]
        rfl
      · rw [effect, withdrawQueued_of_active .timedOut mark queue owner first last active]

end Sys2Proof.Machine.LocalClaims

/-! CLAIM: the five refusals in the order of R153, and the record taken with its frame queued (R154). -/

namespace Sys2Proof.Machine.LocalClaims

variable {s t : State} {k : RecordIndex} {slot resource flags : Byte} {wl : BitVec 16} {sl : Slot}
  {r : Resource}

/-! ## The checks (R66, R153, R154) -/

theorem exec_claim {status : Status} {data : List Byte} (takes : s.Takes (.claim slot resource flags wl))
    (he : claimEffect slot resource flags wl s = ⟨t, status, data⟩) :
    exec (.claim slot resource flags wl) s = .next (t.answered 0x20 status data) :=
  takeCommand_of_effect takes he

theorem duplicate_iff : s.duplicate sl r = true ↔
    ∃ j : RecordIndex, s.records[j].state.live = true ∧ s.records[j].slot = sl
      ∧ s.records[j].resource = r := by
  simp only [State.duplicate, List.any_eq_true, Bool.and_eq_true, decide_eq_true_eq,
    Vector.mem_toList_iff, Vector.mem_iff_getElem, and_assoc]
  constructor
  · rintro ⟨_, ⟨j, hj, rfl⟩, live⟩
    exact ⟨⟨j, hj⟩, live⟩
  · rintro ⟨j, live⟩
    exact ⟨_, ⟨j, j.isLt, rfl⟩, live⟩

theorem duplicate_eq_false
    (new : ∀ j : RecordIndex, s.records[j].state.live = true → s.records[j].slot = sl →
      s.records[j].resource ≠ r) : s.duplicate sl r = false := by
  rw [Bool.eq_false_iff, Ne, duplicate_iff]
  rintro ⟨j, live, slot, resource⟩
  exact new j live slot resource

theorem freeRecord_eq_none
    (used : ∀ j : RecordIndex, s.records[j].state = .free → s.records[j].mark ≠ .none) :
    s.freeRecord = none := by
  simpa [State.freeRecord, allRecords] using used

theorem freeRecord_eq_some (free : s.records[k].state = .free) (mark : s.records[k].mark = .none)
    (lowest : ∀ j : RecordIndex, j < k → s.records[j].state = .free → s.records[j].mark ≠ .none) :
    s.freeRecord = some k := by
  unfold State.freeRecord allRecords
  rw [List.find?_eq_some_iff_getElem]
  refine ⟨by rw [free, mark]; rfl, k, by simp, by simp, fun j hj => ?_⟩
  have used := lowest ⟨j, by omega⟩ hj
  simp only [List.getElem_finRange, Bool.not_eq_true', Bool.and_eq_false_iff, decide_eq_false_iff_not]
  exact Decidable.not_or_of_imp used

theorem freeRecord_exists
    (h : ∃ j : RecordIndex, s.records[j].state = .free ∧ s.records[j].mark = .none) :
    ∃ k, s.freeRecord = some k := by
  obtain ⟨j, free, mark⟩ := h
  rw [← Option.isSome_iff_exists, State.freeRecord, List.find?_isSome]
  exact ⟨j, List.mem_finRange j, by rw [free, mark]; rfl⟩

/-- With more than 5 entries queued no frame of a record is taken, whether or not one of it is queued
already. -/
theorem hostAnswer_status_of_full {kind : FrameKind} (gate : admits s.ctrl.station kind = true)
    (full : 5 < s.tx.queue.length) :
    s.hostAnswer kind k ≠ .taken ∧ (s.hostAnswer kind k).status = .queueFull := by
  cases guard : guardMet s.tx.queue kind (.claimUnit k) <;>
    simp [State.hostAnswer, gate, guard, Nat.not_le.2 full, HostAnswer.status]

/-! ## The refusals (R153, R154) -/

theorem claimEffect_of_wrongState (notMember : s.ctrl.station ≠ .member) :
    claimEffect slot resource flags wl s = s.answers .wrongState :=
  if_pos notMember

theorem claimEffect_of_badArgument (member : s.ctrl.station = .member)
    (bad : 7 < slot.toNat ∨ 63 < resource.toNat) :
    claimEffect slot resource flags wl s = s.answers .badArgument := by
  unfold claimEffect
  rw [if_neg (not_not_intro member)]
  rcases bad with h | h
  · rw [slotOf_eq_none.2 h]
  · rw [resourceOf_eq_none.2 h]
    cases slotOf slot <;> rfl

section
variable (member : s.ctrl.station = .member) (hsl : sl.val = slot.toNat) (hr : r.val = resource.toNat)
include member hsl hr

theorem claimEffect_of_duplicate (duplicate : s.duplicate sl r = true) :
    claimEffect slot resource flags wl s = s.answers .duplicate := by
  simp only [claimEffect, member, slotOf_eq_some.2 hsl, resourceOf_eq_some.2 hr, duplicate,
    ne_eq, not_true_eq_false, if_false, if_true]

theorem claimEffect_of_noRecord (new : s.duplicate sl r = false) (none : s.freeRecord = none) :
    claimEffect slot resource flags wl s = s.answers .noRecord := by
  simp only [claimEffect, member, slotOf_eq_some.2 hsl, resourceOf_eq_some.2 hr, new, none,
    ne_eq, not_true_eq_false, if_false, Bool.false_eq_true]

theorem claimEffect_of_full (new : s.duplicate sl r = false) (free : s.freeRecord = some k)
    (full : 5 < s.tx.queue.length) :
    claimEffect slot resource flags wl s = s.answers .queueFull := by
  obtain ⟨refused, status⟩ := hostAnswer_status_of_full (k := k) (kind := .claim)
    (by rw [member]; rfl) full
  simp only [claimEffect, member, slotOf_eq_some.2 hsl, resourceOf_eq_some.2 hr, new, free,
    ne_eq, not_true_eq_false, if_false, Bool.false_eq_true]
  cases answer : s.hostAnswer .claim k with
  | taken => exact absurd answer refused
  | _ => rw [answer] at status; exact congrArg s.answers status

/-- The claim taken: the reports that wait for the record first, then its frame and its fields. -/
theorem claimEffect_of_taken (new : s.duplicate sl r = false) (free : s.freeRecord = some k)
    (taken : s.hostAnswer .claim k = .taken) :
    claimEffect slot resource flags wl s =
      ⟨((s.takeReportsOn k).enqueue (.fresh .claim (.claimUnit k)
          [byteOf r.val, byteOf k.val, claimFlags (modeOfFlags flags) (noWaitOfFlags flags)])).changeRecord
          k fun _ => .claimed sl r (modeOfFlags flags) (noWaitOfFlags flags) wl,
        .ok, [byteOf k.val]⟩ := by
  simp only [claimEffect, member, slotOf_eq_some.2 hsl, resourceOf_eq_some.2 hr, new, free, taken,
    ne_eq, not_true_eq_false, if_false, Bool.false_eq_true]

end

/-! ## The claim taken (R44, R154) -/

/-- The frame carries the two flags of the command, and 0 in every other bit. -/
theorem claimFlags_of_flags :
    ∀ flags : Byte, claimFlags (modeOfFlags flags) (noWaitOfFlags flags) = flags &&& 3 := by
  decide

theorem presenceHeard_of_member (member : s.ctrl.station = .member) :
    s.presenceHeard = { s with ctrl := { s.ctrl with presence := .running (s.table.p * 10) } } := by
  simp [State.presenceHeard, State.restartPresence, State.presenceInterval, State.mapCtrl, member,
    StationState.inGroup]

/-- Settles O10: the refusals in their order, and the record taken after the reports that wait for it. -/
theorem claimTakenOrRefused : Obligations.ClaimTakenOrRefused := by
  refine ⟨fun slot resource flags wl sl r k s takes member hsl hr new free mark lowest room guard => ?_,
    fun slot resource flags wl s takes => ⟨fun notMember => ?_, fun member bad => ?_,
      fun sl r member hsl hr => ⟨fun j live hslot hresource => ?_,
        fun new => ⟨fun used => ?_, fun free full => ?_⟩⟩⟩⟩
  · intro taken
    have gate : admits s.ctrl.station .claim = true := by rw [member]; rfl
    have answer : s.hostAnswer .claim k = .taken := by
      rw [hostAnswer_of_guarded gate guard, if_pos room]
    have effect := exec_claim takes (claimEffect_of_taken (flags := flags) (wl := wl) member hsl hr
      (duplicate_eq_false new) (freeRecord_eq_some free mark lowest) answer)
    rw [claimFlags_of_flags, hr, byteOf_toNat] at effect
    obtain ⟨accepted, quiet⟩ := State.takeReportsOn_of_free free mark
    refine ⟨fun h => ?_, fun h => ?_⟩
    · rw [effect, quiet h, changeRecord_eq]
      rfl
    · rw [effect, accepted h, presenceHeard_of_member (by exact member), changeRecord_eq]
      rfl
  · exact exec_claim takes (claimEffect_of_wrongState notMember)
  · exact exec_claim takes (claimEffect_of_badArgument member bad)
  · exact exec_claim takes (claimEffect_of_duplicate member hsl hr
      (duplicate_iff.2 ⟨j, live, hslot, hresource⟩))
  · exact exec_claim takes (claimEffect_of_noRecord member hsl hr (duplicate_eq_false new)
      (freeRecord_eq_none used))
  · obtain ⟨k, free⟩ := freeRecord_exists free
    exact exec_claim takes (claimEffect_of_full member hsl hr (duplicate_eq_false new) free full)

end Sys2Proof.Machine.LocalClaims

/-! The post, READ-NOTICE and ACK-NOTICE, each by the notices that it finds (R171, R173, R174,
R176). -/

namespace Sys2Proof.Machine.LocalNotices

variable {s : State} {subject : Subject} {detail : Byte} {n : Notice} {before rest : List Notice}

/-! ## A post (R171) -/

/-- The notice there is, after a further post of its subject. -/
def coalesced (detail : Byte) (n : Notice) : Notice :=
  if n.count < 255 then { n with count := n.count + 1, detail := detail }
  else { n with detail := detail, saturated := true }

theorem coalesced_subject (detail : Byte) (n : Notice) :
    (coalesced detail n).subject = n.subject := by
  unfold coalesced
  split <;> rfl

theorem postList_of_head (same : n.subject = subject) :
    postList subject detail (n :: rest) = coalesced detail n :: rest := by
  rw [postList, if_pos same, coalesced]
  split <;> rfl

/-- A post passes by the notices of other subjects. -/
theorem postList_append (other : ∀ m ∈ before, m.subject ≠ subject) (rest : List Notice) :
    postList subject detail (before ++ rest) = before ++ postList subject detail rest := by
  induction before with
  | nil => rfl
  | cons m before ih =>
    obtain ⟨hm, hbefore⟩ := List.forall_mem_cons.1 other
    rw [List.cons_append, postList, if_neg hm, ih hbefore, List.cons_append]

theorem postList_of_new (new : ∀ m ∈ before, m.subject ≠ subject) :
    postList subject detail before
      = before ++ [{ subject := subject, count := 1, detail := detail, saturated := false }] := by
  have appended := postList_append (detail := detail) new []
  rwa [List.append_nil] at appended

theorem postList_of_mem (other : ∀ m ∈ before, m.subject ≠ subject) (same : n.subject = subject)
    (rest : List Notice) :
    postList subject detail (before ++ n :: rest) = before ++ coalesced detail n :: rest := by
  rw [postList_append other, postList_of_head same]

/-- A list holds no notice of the subject, or a first one. -/
theorem new_or_mem (subject : Subject) (l : List Notice) :
    (∀ m ∈ l, m.subject ≠ subject) ∨ ∃ before n rest, l = before ++ n :: rest
      ∧ n.subject = subject ∧ ∀ m ∈ before, m.subject ≠ subject := by
  induction l with
  | nil => exact .inl (List.forall_mem_nil _)
  | cons m l ih =>
    by_cases same : m.subject = subject
    · exact .inr ⟨[], m, l, rfl, same, List.forall_mem_nil _⟩
    · obtain new | ⟨before, n, rest, rfl, hn, other⟩ := ih
      · exact .inl (List.forall_mem_cons.2 ⟨same, new⟩)
      · exact .inr ⟨m :: before, n, rest, rfl, hn, List.forall_mem_cons.2 ⟨same, other⟩⟩

/-- Settles O16: a notice of the subject coalesces in its place, and a new one goes to the tail. -/
theorem postCoalesces : Obligations.PostCoalesces := by
  refine fun subject detail q => ⟨rfl, fun new => postList_of_new new,
    fun before n after list same other => ?_⟩
  have posted : (q.post subject detail).list = before ++ coalesced detail n :: after := by
    rw [NoticeQueue.post, list, postList_of_mem other same]
  refine ⟨fun below => ?_, fun full => ?_⟩
  · rw [posted, coalesced, if_pos below]
  · rw [posted, coalesced, if_neg (Nat.not_lt.2 full)]

/-! ## Subjects and their characters (R196) -/

theorem subjectOf_code (x : Subject) : subjectOf x.code = some x := by
  cases x with
  | slot n =>
    have value : n.val = (byteOf n.val).toNat := by
      simp only [byteOf, BitVec.toNat_ofNat]
      omega
    rw [Subject.code, subjectOf, slotOf_eq_some.2 value]
  | _ => rfl

theorem code_of_subjectOf {c : Byte} {x : Subject} (h : subjectOf c = some x) : x.code = c := by
  unfold subjectOf at h
  split at h
  · next n slot =>
    cases h
    rw [Subject.code, slotOf_eq_some.1 slot, byteOf_toNat]
  · (repeat' split at h) <;> cases h <;> exact Eq.symm ‹_›

theorem subjectOf_eq_some {c : Byte} {x : Subject} : subjectOf c = some x ↔ x.code = c :=
  ⟨code_of_subjectOf, fun h => h ▸ subjectOf_code x⟩

theorem subjectOf_eq_none {c : Byte} :
    subjectOf c = none ↔ ¬ (c.toNat ≤ 7 ∨ 0x10 ≤ c.toNat ∧ c.toNat ≤ 0x15) := by
  unfold subjectOf
  split
  · next n slot =>
    have value := slotOf_eq_some.1 slot
    simp only [reduceCtorEq, false_iff]
    omega
  · next slot =>
    have above := slotOf_eq_none.1 slot
    (repeat' split) <;> simp only [reduceCtorEq, false_iff, true_iff] <;> bv_omega

theorem exists_subject {c : Byte} (named : c.toNat ≤ 7 ∨ 0x10 ≤ c.toNat ∧ c.toNat ≤ 0x15) :
    ∃ x, subjectOf c = some x :=
  Option.ne_none_iff_exists'.1 fun unnamed => subjectOf_eq_none.1 unnamed named

/-! ## READ-NOTICE (R173) -/

/-- Settles O14: the answer by the list, empty or with a head. -/
theorem readNoticeAnswer : Obligations.ReadNoticeAnswer := by
  refine fun s takes => ⟨fun empty => ?_, fun n rest list => ?_⟩
  · have effect : readNoticeEffect s = s.answers .empty := by rw [readNoticeEffect, empty]
    exact LocalClaims.takeCommand_of_effect takes effect
  · have effect : readNoticeEffect s =
        ⟨{ s with notices := { s.notices with list := { n with saturated := false } :: rest } },
          .ok, [n.subject.code, byteOf n.count, n.detail]⟩ := by
      simp only [readNoticeEffect, list, State.mapNotices, NoticeQueue.readHead]
    exact LocalClaims.takeCommand_of_effect takes effect

/-! ## ACK-NOTICE (R174) -/

section
variable {c count : Byte} {x : Subject} {t : State} {status : Status} {data : List Byte}

theorem exec_ackNotice (takes : s.Takes (.ackNotice c count))
    (he : ackNoticeEffect c count s = ⟨t, status, data⟩) :
    exec (.ackNotice c count) s = .next (t.answered 0x31 status data) :=
  LocalClaims.takeCommand_of_effect takes he

theorem ackNoticeEffect_of_badArgument (bad : subjectOf c = none) :
    ackNoticeEffect c count s = s.answers .badArgument := by
  rw [ackNoticeEffect, bad]

theorem ackNoticeEffect_of_empty (hx : subjectOf c = some x) (empty : s.notices.list = []) :
    ackNoticeEffect c count s = s.answers .empty := by
  simp only [ackNoticeEffect, hx, empty]

theorem ackNoticeEffect_of_notHead (hx : subjectOf c = some x) (list : s.notices.list = n :: rest)
    (other : n.subject ≠ x) : ackNoticeEffect c count s = s.answers .notHead := by
  simp only [ackNoticeEffect, hx, list, if_pos other]

theorem ackNoticeEffect_of_stale (head : subjectOf c = some n.subject)
    (list : s.notices.list = n :: rest)
    (stale : n.count ≠ count.toNat ∨ n.count = 255 ∧ n.saturated = true) :
    ackNoticeEffect c count s = s.answers .stale := by
  simp only [ackNoticeEffect, head, list, if_neg (not_not_intro rfl)]
  obtain differ | marked := stale
  · rw [if_pos differ]
  · rw [if_pos marked, ite_self]

theorem ackNoticeEffect_of_fresh (head : subjectOf c = some n.subject)
    (list : s.notices.list = n :: rest) (same : n.count = count.toNat)
    (fresh : n.count ≠ 255 ∨ n.saturated = false) :
    ackNoticeEffect c count s =
      State.answers { s with notices := ⟨rest, !rest.isEmpty⟩ } .ok := by
  have unmarked : ¬ (n.count = 255 ∧ n.saturated = true) := fun ⟨full, marked⟩ =>
    fresh.elim (fun below => below full) fun clear => Bool.false_ne_true (clear.symm.trans marked)
  simp only [ackNoticeEffect, head, list, if_neg (not_not_intro rfl), if_neg (not_not_intro same),
    if_neg unmarked, State.mapNotices, NoticeQueue.removeHead, List.tail_cons]

end

/-- Settles O15: the refusals in their order, and the head removed. -/
theorem ackNoticeAnswer : Obligations.AckNoticeAnswer := by
  refine fun subject count s takes => ⟨fun bad => ?_, fun named => ⟨fun empty => ?_,
    fun n rest list => ⟨fun other => ?_, fun head differ => ?_, fun head _ full marked => ?_,
      fun head same fresh => ?_⟩⟩⟩
  · exact exec_ackNotice takes (ackNoticeEffect_of_badArgument (subjectOf_eq_none.2 bad))
  · obtain ⟨x, hx⟩ := exists_subject named
    exact exec_ackNotice takes (ackNoticeEffect_of_empty hx empty)
  · obtain ⟨x, hx⟩ := exists_subject named
    have notHead : n.subject ≠ x := fun h => other (h ▸ code_of_subjectOf hx)
    exact exec_ackNotice takes (ackNoticeEffect_of_notHead hx list notHead)
  · exact exec_ackNotice takes
      (ackNoticeEffect_of_stale (subjectOf_eq_some.2 head) list (.inl differ))
  · exact exec_ackNotice takes
      (ackNoticeEffect_of_stale (subjectOf_eq_some.2 head) list (.inr ⟨full, marked⟩))
  · exact exec_ackNotice takes
      (ackNoticeEffect_of_fresh (subjectOf_eq_some.2 head) list same fresh)

end Sys2Proof.Machine.LocalNotices

/-! The notice queue's law after a post, a READ-NOTICE and an ACK-NOTICE, and the queues that posts
make of a queue (R170, R171, R173, R174, R176). -/

namespace Sys2Proof.Machine.NoticePosts

variable {q r : NoticeQueue} {l rest : List Notice} {n : Notice}

/-! ## The law of a list and of a notice (R171) -/

/-- The change count is 1 to 255, and a saturation mark stands only at 255. -/
def Counted (n : Notice) : Prop :=
  1 ≤ n.count ∧ n.count ≤ 255 ∧ (n.saturated = true → n.count = 255)

/-- Each subject has at most one notice, and every notice is counted. -/
structure ListLaw (l : List Notice) : Prop where
  distinct : (l.map Notice.subject).Nodup
  counted : ∀ n ∈ l, Counted n

theorem law_iff : q.Law ↔ q.attn = !q.list.isEmpty ∧ ListLaw q.list :=
  ⟨fun ⟨attn, distinct, counted⟩ => ⟨attn, distinct, counted⟩,
    fun ⟨attn, distinct, counted⟩ => ⟨attn, distinct, counted⟩⟩

theorem counted_coalesced (h : Counted n) (detail : Byte) :
    Counted (LocalNotices.coalesced detail n) := by
  obtain ⟨low, high, marked⟩ := h
  unfold LocalNotices.coalesced
  split
  · next below =>
    exact ⟨Nat.le_add_left 1 _, below, fun mark => absurd (marked mark) (Nat.ne_of_lt below)⟩
  · next full => exact ⟨low, high, fun _ => Nat.le_antisymm high (Nat.not_lt.1 full)⟩

/-- One notice changes and keeps its subject. -/
theorem ListLaw.changed {before : List Notice} {m : Notice}
    (h : ListLaw (before ++ n :: rest)) (subject : m.subject = n.subject) (counted : Counted m) :
    ListLaw (before ++ m :: rest) where
  distinct := by simpa [subject] using h.distinct
  counted := by
    obtain ⟨hbefore, hrest⟩ := List.forall_mem_append.1 h.counted
    exact List.forall_mem_append.2
      ⟨hbefore, List.forall_mem_cons.2 ⟨counted, (List.forall_mem_cons.1 hrest).2⟩⟩

theorem ListLaw.appended (h : ListLaw l) (new : ∀ m ∈ l, m.subject ≠ n.subject)
    (counted : Counted n) : ListLaw (l ++ [n]) where
  distinct := by
    rw [List.map_append, List.map_singleton]
    refine List.nodup_append.2 ⟨h.distinct, List.pairwise_singleton _ _, fun x hx y hy => ?_⟩
    obtain ⟨m, hm, rfl⟩ := List.mem_map.1 hx
    exact List.mem_singleton.1 hy ▸ new m hm
  counted := List.forall_mem_append.2 ⟨h.counted, List.forall_mem_singleton.2 counted⟩

theorem ListLaw.posted (h : ListLaw l) (subject : Subject) (detail : Byte) :
    ListLaw (postList subject detail l) := by
  obtain new | ⟨before, n, rest, rfl, same, other⟩ := LocalNotices.new_or_mem subject l
  · rw [LocalNotices.postList_of_new new]
    exact h.appended new ⟨Nat.le_refl 1, by simp, nofun⟩
  · rw [LocalNotices.postList_of_mem other same]
    exact h.changed (LocalNotices.coalesced_subject detail n)
      (counted_coalesced (h.counted n (by simp)) detail)

theorem postList_ne_nil (subject : Subject) (detail : Byte) (l : List Notice) :
    postList subject detail l ≠ [] := by
  cases l with
  | nil => exact List.cons_ne_nil _ _
  | cons n rest =>
    rw [postList]
    (repeat' split) <;> exact List.cons_ne_nil _ _

/-! ## The queue's operations keep its law -/

theorem law_post (h : q.Law) (subject : Subject) (detail : Byte) : (q.post subject detail).Law := by
  obtain ⟨-, list⟩ := law_iff.1 h
  have full : (postList subject detail q.list).isEmpty = false :=
    List.isEmpty_eq_false_iff.2 (postList_ne_nil subject detail q.list)
  exact law_iff.2 ⟨by simp [NoticeQueue.post, full], list.posted subject detail⟩

theorem readHead_of_empty (empty : q.list = []) : q.readHead = q := by
  obtain ⟨l, attn⟩ := q
  cases empty
  rfl

theorem law_readHead (h : q.Law) : q.readHead.Law := by
  obtain ⟨l, asserted⟩ := q
  cases l with
  | nil => exact h
  | cons n rest =>
    obtain ⟨attn, list⟩ := law_iff.1 h
    obtain ⟨low, high, -⟩ := list.counted n (List.mem_cons_self ..)
    exact law_iff.2 ⟨attn, list.changed (before := []) rfl ⟨low, high, nofun⟩⟩

theorem law_removeHead (h : q.Law) : q.removeHead.Law := by
  obtain ⟨-, list⟩ := law_iff.1 h
  refine law_iff.2 ⟨rfl, ?_, fun n mem => list.counted n (List.mem_of_mem_tail mem)⟩
  rw [NoticeQueue.removeHead, List.map_tail]
  exact list.distinct.tail

theorem law_reset : NoticeQueue.reset.Law := ⟨rfl, List.nodup_nil, List.forall_mem_nil _⟩

/-! ## Queues made by posts (R172) -/

/-- The queues that any number of posts make of the queue `q`. -/
inductive PostedTo (q : NoticeQueue) : NoticeQueue → Prop
  | none : PostedTo q q
  | post {r : NoticeQueue} (h : PostedTo q r) (subject : Subject) (detail : Byte) :
    PostedTo q (r.post subject detail)

theorem PostedTo.law (h : PostedTo q r) (hq : q.Law) : r.Law := by
  induction h with
  | none => exact hq
  | post _ subject detail ih => exact law_post ih subject detail

/-- The notices of the state are those of the queue `q` with any number of posts made to it. -/
def Posted (q : NoticeQueue) (s : State) : Prop := PostedTo q s.notices

section
variable {s t : State}

theorem Posted.refl (s : State) : Posted s.notices s := PostedTo.none

/-- What leaves the notices as they are makes no post. -/
theorem Posted.same (h : Posted q s) (notices : t.notices = s.notices) : Posted q t := by
  rwa [Posted, notices]

theorem Posted.mapLine (h : Posted q s) (f : LineIf → LineIf) : Posted q (s.mapLine f) := h

theorem Posted.mapTx (h : Posted q s) (f : Transmitter → Transmitter) : Posted q (s.mapTx f) := h

theorem Posted.mapRx (h : Posted q s) (f : Receiver → Receiver) : Posted q (s.mapRx f) := h

theorem Posted.mapCtrl (h : Posted q s) (f : Controller → Controller) : Posted q (s.mapCtrl f) := h

theorem Posted.mapPort (h : Posted q s) (f : Port → Port) : Posted q (s.mapPort f) := h

theorem Posted.mapRecord (h : Posted q s) (k : RecordIndex) (f : ClaimRecord → ClaimRecord) :
    Posted q (s.mapRecord k f) := h

theorem Posted.enqueue (h : Posted q s) (e : TxEntry) : Posted q (s.enqueue e) := h

theorem Posted.answers (h : Posted q s) (status : Status) :
    Posted q (s.answers status).after := h

theorem Posted.post (h : Posted q s) (subject : Subject) (detail : Byte) :
    Posted q (s.post subject detail) :=
  PostedTo.post h subject detail

theorem Posted.law (h : Posted q s) (hq : q.Law) : s.notices.Law :=
  PostedTo.law h hq

end

end Sys2Proof.Machine.NoticePosts

/-! The operations on records, members and the station state make posts and change the notices in no
other way (R172). -/

namespace Sys2Proof.Machine.NoticePosts

variable {q : NoticeQueue} {s : State}

/-! ## Claim records (R152, R156, R162) -/

theorem Posted.changeRecord (h : Posted q s) (k : RecordIndex) (f : ClaimRecord → ClaimRecord) :
    Posted q (s.changeRecord k f) :=
  (h.mapRecord k f).post _ _

theorem Posted.dropRecord (h : Posted q s) (reason : DropReason) (k : RecordIndex) :
    Posted q (s.dropRecord reason k) :=
  (h.changeRecord k _).same (State.handOut_notices _)

theorem Posted.withdrawQueued (h : Posted q s) (reason : CancelReason) (k : RecordIndex) :
    Posted q (s.withdrawQueued reason k) := by
  have cancelled : Posted q
      ((s.mapRecord k fun r => { r with waitTimer := none }).cancel (ofRecord k)).1 :=
    h.same (by simp)
  unfold State.withdrawQueued
  dsimp only
  split
  · split
    · next heq =>
      rw [heq] at cancelled
      exact cancelled.changeRecord k _
    · next heq =>
      rw [heq] at cancelled
      exact cancelled.mapRecord k _
    · next heq =>
      rw [heq] at cancelled
      exact cancelled.mapRecord k _
  · exact (h.mapRecord k _).mapRecord k _
  · exact (h.mapRecord k _).mapRecord k _

theorem Posted.loseRecord (h : Posted q s) (k : RecordIndex) : Posted q (s.loseRecord k) := by
  unfold State.loseRecord
  split
  · exact h.changeRecord k _
  · exact h.mapRecord k _

theorem Posted.takeInsertion (h : Posted q s) (k : RecordIndex) (granted : Bool) :
    Posted q (s.takeInsertion k granted) := by
  unfold State.takeInsertion
  split
  · exact h.dropRecord _ k
  · split <;> exact h.changeRecord k _

theorem Posted.recordReport (h : Posted q s) (k : RecordIndex) (news : ClaimNews) :
    Posted q (s.recordReport k news) := by
  unfold State.recordReport
  split
  case h_1 | h_2 => exact h.takeInsertion k _
  case h_9 => exact h
  all_goals exact h.changeRecord k _

theorem Posted.takeClaimReport (h : Posted q s) (resource record : Byte) (news : ClaimNews) :
    Posted q (s.takeClaimReport resource record news) := by
  unfold State.takeClaimReport
  split
  · split
    · exact h.recordReport _ news
    · exact h
  · exact h

theorem Posted.waitEffect (h : Posted q s) (k : RecordIndex) : Posted q (s.waitEffect k) := by
  unfold State.waitEffect
  split
  · exact h.withdrawQueued _ k
  · exact h.dropRecord _ k
  · exact h.mapRecord k _

/-! ## One change after another -/

theorem Posted.foldl {α : Type} {f : State → α → State}
    (hf : ∀ {s : State}, Posted q s → ∀ x, Posted q (f s x)) (h : Posted q s) (xs : List α) :
    Posted q (xs.foldl f s) := by
  induction xs generalizing s with
  | nil => exact h
  | cons x xs ih => exact ih (hf h x)

/-! ## The detach (R145, R169) -/

theorem Posted.reportDetach (h : Posted q s) (reason : DetachReason) :
    Posted q (s.reportDetach reason) :=
  (h.post _ _).mapCtrl _

theorem Posted.detach (h : Posted q s) (reason : DetachReason) : Posted q (s.detach reason) := by
  have cleared : Posted q (State.clearGroup { s with table := .absent }) :=
    h.same (State.clearGroup_notices _)
  have reported := (cleared.foldl Posted.loseRecord allRecords).reportDetach reason
  unfold State.detach
  dsimp only
  split
  case h_1 | h_2 | h_3 => exact h
  all_goals
    split
    · exact reported.mapCtrl _
    · exact reported.mapCtrl _

theorem Posted.endFailedCatchup (h : Posted q s) : Posted q s.endFailedCatchup := h.detach _

theorem Posted.endAttempt (h : Posted q s) (failed : Bool) : Posted q (s.endAttempt failed) := by
  unfold State.endAttempt
  split
  · exact h
  · split
    · exact Posted.detach (h.same (State.flush_notices s)) _
    · dsimp only
      split <;> exact h.same (by simp)

/-! ## Membership (R110, R127, R134) -/

theorem Posted.foundGroup (h : Posted q s) (tag : Byte) : Posted q (s.foundGroup tag) :=
  Posted.post (h.same (by simp)) _ _

theorem Posted.postRoster (h : Posted q s) : Posted q s.postRoster := h.post _ _

theorem Posted.memberAdded (h : Posted q s) (j : Station) : Posted q (s.memberAdded j) :=
  Posted.postRoster (s := s.startSilence j) h

theorem Posted.memberRemoved (h : Posted q s) (x : Station) : Posted q (s.memberRemoved x) := by
  have withdrawn : Posted q ((s.mapCtrl fun c =>
      { c with silence := c.silence.set x none }).withdrawEviction x) := h.same (by simp)
  exact withdrawn.postRoster.same (by simp [State.memberRemoved])

theorem Posted.caughtUp (h : Posted q s) : Posted q s.caughtUp := by
  have member : Posted q ((s.mapCtrl fun c =>
      { c with catchupCount := 0 }).enter .member).restartPresence := h.same (by simp)
  have joined := member.post .joined ((s.mapCtrl fun c =>
      { c with catchupCount := 0 }).enter .member).table.tag
  unfold State.caughtUp
  dsimp only
  split
  · exact joined.post _ _
  · exact joined

theorem Posted.endInstall (h : Posted q s) : Posted q (SilenceTimers.endInstall s) := by
  unfold SilenceTimers.endInstall
  dsimp only
  split
  · exact Posted.caughtUp (h.postRoster.same (by simp))
  · exact h.postRoster.same (by simp)

theorem Posted.install (h : Posted q s) (tseq : Tseq) : Posted q (s.install tseq) := by
  rw [SilenceTimers.install_eq]
  split
  · exact h.same (by simp)
  · exact Posted.endInstall (h.same (by simp))

theorem Posted.askEffect (h : Posted q s) : Posted q s.askEffect := by
  unfold State.askEffect
  split
  · exact h.same (by simp)
  · exact (Posted.reportDetach (h.same (State.clearGroup_notices s)) _).mapCtrl _

theorem Posted.stallEffect (h : Posted q s) : Posted q s.stallEffect := by
  unfold State.stallEffect
  dsimp only
  split
  · exact (h.mapCtrl _).endFailedCatchup
  · exact h.same (by simp)

theorem Posted.withdrawOnLeaving (h : Posted q s) (k : RecordIndex) :
    Posted q (s.withdrawOnLeaving k) := by
  unfold State.withdrawOnLeaving
  split
  · exact h.withdrawQueued _ k
  · exact h

theorem Posted.startLeaving (h : Posted q s) : Posted q s.startLeaving := by
  unfold State.startLeaving
  exact Posted.foldl Posted.withdrawOnLeaving (h.same (by simp)) _

/-! ## Applications and replay (R14, R123, R124, R126) -/

theorem Posted.takeTableReport (h : Posted q s) (r : TableReport) :
    Posted q (s.takeTableReport r) := by
  cases r with
  | claim resource record news => exact h.takeClaimReport resource record news
  | memberAdded j => exact h.memberAdded j
  | memberRemoved x how => exact h.memberRemoved x
  | ownRemoved how => exact h.detach _
  | admitResult effect => exact h.same (by simp [State.takeTableReport])

theorem Posted.applyFrame (h : Posted q s) (f : Frame) : Posted q (s.applyFrame f) := by
  unfold State.applyFrame
  split
  · have changed : Posted q { s with table := (s.table.apply s.own f).1 } := h
    exact changed.foldl Posted.takeTableReport _
  · exact h

theorem Posted.placePending (h : Posted q s) (kind : FrameKind) (sender : Station) (f : Frame) :
    Posted q (s.placePending kind sender f) := by
  have counted : Posted q (s.mapCtrl fun c => { c with catchupCount := c.catchupCount + 1 }) :=
    h.mapCtrl _
  unfold State.placePending
  dsimp only
  split
  · split
    · exact counted.endFailedCatchup
    · exact counted
  · split
    · exact counted.same (by simp)
    · split <;> exact counted.same (by simp)

theorem Posted.takePart (h : Posted q s) (sender : Station) (f : Frame) :
    Posted q (s.takePart sender f) := by
  unfold State.takePart
  split
  · split
    · split
      · dsimp only
        split
        · exact (h.mapCtrl _).install _
        · exact h.mapCtrl _
      · exact h.same (by simp)
    · exact h
  · exact h

theorem Posted.replayFrame (h : Posted q s) (f : Frame) : Posted q (s.replayFrame f) := by
  unfold State.replayFrame
  split
  · split
    · exact h
    · split
      · exact h.same (by simp)
      · exact h.applyFrame f
  · exact h

theorem Posted.replayEffect (h : Posted q s) : Posted q s.replayEffect := by
  unfold State.replayEffect
  split
  · next f rest _ =>
    have replayed : Posted q ((s.mapCtrl fun c =>
        { c with pendingApply := rest, catchupCount := c.catchupCount - 1 }).replayFrame f) :=
      (h.mapCtrl _).replayFrame f
    unfold State.replayEnd
    split
    · exact replayed.caughtUp
    · exact replayed
  · exact h

end Sys2Proof.Machine.NoticePosts

/-! The events of the line interface, the receiver and the owners of frames, and the commands of the
port but READ-NOTICE and ACK-NOTICE, make posts and change the notices in no other way (R172). -/

namespace Sys2Proof.Machine.NoticePosts

variable {q : NoticeQueue} {s t : State}

/-! ## Line interface (R61, R62, R135, R136) -/

theorem Posted.breakEffect (h : Posted q s) : Posted q s.breakEffect := by
  unfold State.breakEffect
  split
  case h_1 | h_2 => exact (h.mapLine _).endAttempt true
  all_goals exact h.mapLine _

theorem Posted.windowCloseEffect (h : Posted q s) : Posted q s.windowCloseEffect := by
  have closed : Posted q (s.mapLine LineIf.closeWindow) := h.mapLine _
  unfold State.windowCloseEffect
  dsimp only
  split
  · split
    · exact closed.endAttempt true
    · exact closed.same (by simp)
  · exact closed

theorem Posted.lineFaultEffect (h : Posted q s) : Posted q s.lineFaultEffect :=
  ((h.mapLine _).mapCtrl _).post _ _

theorem Posted.lineRecoveryEffect (h : Posted q s) : Posted q s.lineRecoveryEffect := by
  have restored : Posted q ((s.goIdle.mapCtrl Controller.takeRecovery).post .lineRestored 0) :=
    Posted.post (s := s.goIdle.mapCtrl Controller.takeRecovery) h _ _
  unfold State.lineRecoveryEffect
  dsimp only
  split
  · exact restored.detach _
  · exact restored

/-! ## Receiver (R84 to R101) -/

theorem Posted.takeResult (h : Posted q s) (clean : Bool) : Posted q (s.takeResult clean) := by
  unfold State.takeResult
  dsimp only
  split
  · exact (h.mapRx _).detach _
  · exact h.mapRx _

theorem Posted.takeItem (h : Posted q s) (x : StreamItem) : Posted q (s.takeItem x) := by
  cases x with
  | result clean => exact h.takeResult clean
  | char _ | truncation | lineBreak => exact h.mapRx _
  | opening => exact h

theorem Posted.takeHead (h : Posted q s) : Posted q s.takeHead := by
  unfold State.takeHead
  split
  · exact (h.mapLine _).takeItem _
  · exact h

theorem Posted.countVeto (h : Posted q s) (decision : Option VetoKind) :
    Posted q (s.countVeto decision) := by
  unfold State.countVeto
  split
  · exact h.mapRx _
  · exact h.same (by simp)
  · dsimp only
    split
    · exact (h.mapRx _).detach _
    · exact h.mapRx _

theorem Posted.answerOpening (h : Posted q s) (a : Assembly) : Posted q (s.answerOpening a) := by
  have drawn : Posted q
      { s with freeCount := if a.short then s.freeCount + 1 else s.freeCount } := h
  exact (((drawn.mapLine _).countVeto _).mapRx _).mapRx _

theorem Posted.openingEffect (h : Posted q s) : Posted q s.openingEffect := by
  have taken : Posted q s.takeUpToOpening := (h.mapLine _).foldl Posted.takeItem _
  unfold State.openingEffect
  dsimp only
  split
  · exact taken.answerOpening _
  · exact taken

theorem Posted.foundingTakes (h : Posted q s) (kind : FrameKind) (sender : Station) (f : Frame) :
    Posted q (s.foundingTakes kind sender f) := by
  unfold State.foundingTakes
  split
  · split
    · exact h.foundGroup _
    · exact h
  · exact h.same (by simp)

theorem Posted.toRecipient (h : Posted q s) (kind : FrameKind) (sender : Station) (f : Frame) :
    Posted q (s.toRecipient kind sender f) := by
  have sequenced : Posted q (if s.ctrl.station = .catchup then s.placePending kind sender f
      else if sender ∈ s.table.roster then s.mapRx fun r => { r with handoff := some f }
      else s) := by
    split
    · exact h.placePending kind sender f
    · split
      · exact h.mapRx _
      · exact h
  cases kind with
  | claim | drop | evict | leave | admission => exact sequenced
  | snapshot =>
    unfold State.toRecipient
    dsimp only
    split
    · exact h.takePart sender f
    · exact h
  | joinAsk => exact h.same (by simp [State.toRecipient])
  | announce | presence => exact h

theorem Posted.checked (h : Posted q s) (kind : FrameKind) (sender : Station) (f : Frame) :
    Posted q (s.checked kind sender f) := by
  have heard : Posted q (s.silenceReport sender) := h.same (by simp)
  unfold State.checked
  split
  · exact h.detach _
  · split
    · exact h
    · dsimp only
      split
      · split
        · exact heard.detach _
        · exact Posted.toRecipient (heard.same (by simp)) _ _ _
      · exact heard.toRecipient _ _ _

theorem Posted.handOn (h : Posted q s) (f : Frame) : Posted q (s.handOn f) := by
  unfold State.handOn
  split
  · exact h
  · next kind sender _ =>
    split
    · exact h
    · exact h
    · split
      · exact h
      · exact h.same (by simp)
    · split
      · exact h
      · exact h.foundingTakes kind sender f
    · split
      · exact h
      · exact h.same (by simp)
    all_goals exact h.checked kind sender f

theorem Posted.handoffEffect (h : Posted q s) : Posted q s.handoffEffect := by
  unfold State.handoffEffect
  split
  · exact (h.mapRx _).handOn _
  · exact h

theorem Posted.applicationEffect (h : Posted q s) : Posted q s.applicationEffect := by
  unfold State.applicationEffect
  split
  · exact (h.mapRx _).applyFrame _
  · exact h

/-! ## Owners of frames (R76) -/

theorem Posted.controllerAccepted (h : Posted q s) (kind : FrameKind) :
    Posted q (s.controllerAccepted kind) := by
  cases kind with
  | announce =>
    simp only [State.controllerAccepted]
    split
    · exact h.foundGroup _
    · exact h
  | joinAsk =>
    simp only [State.controllerAccepted]
    split
    · exact h.mapCtrl _
    · exact h
  | snapshot => exact h.same (by simp [State.controllerAccepted])
  | evict =>
    simp only [State.controllerAccepted]
    split
    · exact h.same (by simp)
    · exact h
  | leave =>
    simp only [State.controllerAccepted]
    split
    · exact h.detach _
    · split
      · exact h.endFailedCatchup
      · exact h
    all_goals exact h
  | admission | presence | claim | drop => exact h

theorem Posted.takeAccepted (h : Posted q s) (kind : FrameKind) (owner : FrameOwner) :
    Posted q (s.takeAccepted kind owner) := by
  have heard : Posted q s.presenceHeard := h.same (by simp)
  cases owner with
  | claimUnit k => exact heard.mapRecord k _
  | controller => exact heard.controllerAccepted kind

theorem Posted.takeWithdrawn (h : Posted q s) (kind : FrameKind) (owner : FrameOwner) :
    Posted q (s.takeWithdrawn kind owner) := by
  cases owner with
  | claimUnit k =>
    have unmarked : Posted q (s.mapRecord k (ClaimRecord.unmark kind)) := h.mapRecord k _
    simp only [State.takeWithdrawn]
    split
    · exact unmarked.changeRecord k _
    · exact unmarked
  | controller =>
    refine h.same ?_
    cases kind <;> simp only [State.takeWithdrawn, State.dropPartReport_untouched]
    split <;> simp

theorem Posted.takeReport (h : Posted q s) (r : TxReport) : Posted q (s.takeReport r) := by
  cases r with
  | accepted kind owner => exact h.takeAccepted kind owner
  | withdrawn kind owner => exact h.takeWithdrawn kind owner

theorem Posted.takeReportsOn (h : Posted q s) (k : RecordIndex) : Posted q (s.takeReportsOn k) :=
  (h.mapTx _).foldl Posted.takeReport _

theorem Posted.reportEffect (h : Posted q s) (path : ReportPath) :
    Posted q (s.reportEffect path) := by
  unfold State.reportEffect
  split
  · exact (h.mapTx _).takeReport _
  · exact h

/-! ## Commands of the port (R141, R153, R161) -/

theorem Posted.configureEffect (h : Posted q s) (d : BitVec 16) (f : Byte) (timebase : BitVec 16)
    (p k : Byte) : Posted q (configureEffect d f timebase p k s).after := by
  unfold Machine.configureEffect
  split
  · exact h
  · split
    · exact h
    · unfold State.configured
      dsimp only [State.answers]
      split <;> split <;> exact h.same rfl

theorem Posted.defineEffect (h : Posted q s) (resource limit : Byte) :
    Posted q (defineEffect resource limit s).after := by
  unfold Machine.defineEffect
  split
  · exact h
  · split
    · split <;> exact h.same rfl
    · exact h

theorem Posted.joinEffect (h : Posted q s) : Posted q (joinEffect s).after := by
  unfold Machine.joinEffect
  split
  · exact Posted.answers (h.same (by simp)) _
  · exact h

theorem Posted.leaveEffect (h : Posted q s) : Posted q (leaveEffect s).after := by
  unfold Machine.leaveEffect
  split
  · exact h.startLeaving.answers _
  · split
    · exact h
    · exact Posted.answers (h.same (by simp)) _
  case h_3 | h_8 => exact h
  all_goals exact Posted.answers (h.same (by simp)) _

theorem Posted.claimEffect (h : Posted q s) (slot resource flags : Byte) (waitLimit : BitVec 16) :
    Posted q (claimEffect slot resource flags waitLimit s).after := by
  unfold Machine.claimEffect
  split
  · exact h
  · split
    · split
      · exact h
      · split
        · exact h
        · next k _ =>
          split
          · exact ((h.takeReportsOn k).enqueue _).changeRecord k _
          · exact h
    · exact h

theorem Posted.hostDrop (h : Posted q s) (reason : DropReason) (k : RecordIndex) :
    Posted q (s.hostDrop reason k).after := by
  unfold State.hostDrop
  split
  · split
    · exact (h.enqueue _).changeRecord k _
    · exact h
  all_goals exact h.dropRecord reason k

theorem Posted.dropEffect (h : Posted q s) (record : Byte) :
    Posted q (dropEffect record s).after := by
  unfold Machine.dropEffect
  split
  · exact h
  · split
    · exact h
    · next k _ =>
      split
      · split
        · exact h
        · exact h.withdrawQueued _ k
      · exact h.hostDrop _ k
      · exact h.hostDrop _ k
      all_goals exact h

theorem Posted.readClaimEffect (h : Posted q s) (record option : Byte) :
    Posted q (readClaimEffect record option s).after := by
  unfold Machine.readClaimEffect
  split
  · exact h
  · dsimp only
    split
    · exact h.mapRecord _ _
    · exact h

theorem Posted.retireEffect (h : Posted q s) (record : Byte) :
    Posted q (retireEffect record s).after := by
  unfold Machine.retireEffect
  split
  · exact h
  · split <;> exact h.same rfl

theorem Posted.readRosterEffect (h : Posted q s) : Posted q (readRosterEffect s).after := by
  unfold Machine.readRosterEffect
  split <;> exact h

theorem Posted.readResourceEffect (h : Posted q s) (resource first : Byte) :
    Posted q (readResourceEffect resource first s).after := by
  unfold Machine.readResourceEffect
  split
  · exact h
  · split <;> exact h

theorem Posted.repeatEffect (h : Posted q s) : Posted q (repeatEffect s).after := by
  unfold Machine.repeatEffect
  split <;> exact h

end Sys2Proof.Machine.NoticePosts

/-! The notice queue's law after every step. -/

namespace Sys2Proof.Machine.NoticePosts

variable {q : NoticeQueue} {s t : State}

/-! ## Commands and events (R180) -/

/-- The port's part in a command leaves the notices as its effect does. -/
theorem notices_of_takeCommand {i : Instr} {keep : Option Byte} {effect : State → Effect}
    (h : takeCommand i keep effect s = .next t) :
    t.notices = (effect s).after.notices ∨ t.notices = s.notices := by
  unfold takeCommand at h
  split at h
  · cases h
    exact .inl rfl
  · cases h
    exact .inr rfl

theorem Posted.takeCommand (hs : Posted q s) {i : Instr} {keep : Option Byte}
    {effect : State → Effect} (heffect : Posted q (effect s).after)
    (h : takeCommand i keep effect s = .next t) : Posted q t :=
  (notices_of_takeCommand h).elim heffect.same hs.same

theorem Posted.whenDue (hs : Posted q s) {due : Bool} {effect : State → State}
    (heffect : Posted q (effect s)) (h : whenDue due effect s = .next t) : Posted q t := by
  cases due with
  | true =>
    cases h
    exact heffect
  | false =>
    cases h
    exact hs

theorem Posted.portCharacter (hs : Posted q s) {mosi : Byte}
    (h : execPortCharacter mosi s = .next t) : Posted q t := by
  unfold execPortCharacter at h
  split at h <;> cases h <;> exact hs.same rfl

/-- The command does no more to the notices than post: device reset and the two commands that read
and acknowledge the head do (R170, R173, R174). -/
def onlyPosts : Instr → Bool
  | .deviceReset _ _ _ | .readNotice | .ackNotice _ _ => false
  | _ => true

/-- Every other command and event does no more to the notices than post (R172). -/
theorem Posted.exec (hs : Posted q s) {i : Instr} (hi : onlyPosts i = true)
    (h : exec i s = .next t) : Posted q t := by
  cases i with
  | deviceReset _ _ _ | readNotice | ackNotice _ _ => exact nomatch hi
  | transactionOpen | transactionClose =>
    cases h
    exact hs.mapPort _
  | portCharacter mosi => exact hs.portCharacter h
  | configure d f timebase p k => exact hs.takeCommand (hs.configureEffect d f timebase p k) h
  | defineResource resource limit => exact hs.takeCommand (hs.defineEffect resource limit) h
  | join => exact hs.takeCommand hs.joinEffect h
  | leave => exact hs.takeCommand hs.leaveEffect h
  | claim slot resource flags waitLimit =>
    exact hs.takeCommand (hs.claimEffect slot resource flags waitLimit) h
  | drop record => exact hs.takeCommand (hs.dropEffect record) h
  | readClaim record option => exact hs.takeCommand (hs.readClaimEffect record option) h
  | retire record => exact hs.takeCommand (hs.retireEffect record) h
  | readStatus | unknownCommand _ => exact hs.takeCommand (hs.same rfl) h
  | readRoster => exact hs.takeCommand hs.readRosterEffect h
  | readResource resource first => exact hs.takeCommand (hs.readResourceEffect resource first) h
  | repeatResponse => exact hs.takeCommand hs.repeatEffect h
  | timebaseTick | gapExpiry | lineIdle | vetoDriveEnd | breakDriveEnd | breakEnd =>
    exact hs.whenDue (hs.same rfl) h
  | startEdge | attemptStart | characterComplete => exact hs.whenDue (hs.same (by simp)) h
  | arbitrationLoss => exact hs.whenDue (effect := State.lossEffect) ((hs.mapLine _).endAttempt _) h
  | readbackMismatch =>
    exact hs.whenDue (effect := State.mismatchEffect) ((hs.mapLine _).endAttempt _) h
  | windowClose => exact hs.whenDue hs.windowCloseEffect h
  | breakTaken => exact hs.whenDue hs.breakEffect h
  | lineFault => exact hs.whenDue hs.lineFaultEffect h
  | lineRecovery => exact hs.whenDue hs.lineRecoveryEffect h
  | takeCharacter | takeTruncation | takeBreak | windowResult => exact hs.whenDue hs.takeHead h
  | windowOpening => exact hs.whenDue hs.openingEffect h
  | handoff => exact hs.whenDue hs.handoffEffect h
  | application => exact hs.whenDue hs.applicationEffect h
  | acceptedReport path | withdrawnReport path => exact hs.whenDue (hs.reportEffect path) h
  | replayStep => exact hs.whenDue hs.replayEffect h
  | listenTimerExpiry | presenceTimerExpiry | silenceTimerExpiry _ | holdoffTimerExpiry =>
    exact hs.whenDue (hs.same (by simp)) h
  | askTimerExpiry => exact hs.whenDue hs.askEffect h
  | stallTimerExpiry => exact hs.whenDue hs.stallEffect h
  | waitTimerExpiry k => exact hs.whenDue (hs.waitEffect k) h

/-! ## The three commands that do more than post (R170, R173, R174) -/

theorem readNoticeEffect_notices (s : State) :
    (readNoticeEffect s).after.notices = s.notices.readHead := by
  unfold readNoticeEffect
  split
  · next empty =>
    rw [readHead_of_empty empty]
    rfl
  · rfl

theorem ackNoticeEffect_notices (subject count : Byte) (s : State) :
    (ackNoticeEffect subject count s).after.notices = s.notices
      ∨ (ackNoticeEffect subject count s).after.notices = s.notices.removeHead := by
  unfold ackNoticeEffect
  split
  · exact .inl rfl
  · split
    · exact .inl rfl
    · split
      · exact .inl rfl
      · split
        · exact .inl rfl
        · split
          · exact .inl rfl
          · exact .inr rfl

theorem deviceReset_notices {straps : BitVec 5} {auto csLow : Bool}
    (h : execDeviceReset straps auto csLow s = .next t) : t.notices = .reset := by
  unfold execDeviceReset at h
  dsimp only at h
  cases h
  split
  · simp [State.deviceReset]
  · rfl

/-! ## Every step -/

theorem law_exec (hs : s.notices.Law) {i : Instr} (h : exec i s = .next t) : t.notices.Law := by
  cases hi : onlyPosts i with
  | true => exact ((Posted.refl s).exec hi h).law hs
  | false =>
    cases i with
    | deviceReset straps auto csLow => exact deviceReset_notices h ▸ law_reset
    | readNotice =>
      obtain same | same := notices_of_takeCommand h
      · exact same ▸ readNoticeEffect_notices s ▸ law_readHead hs
      · exact same ▸ hs
    | ackNotice subject count =>
      obtain same | same := notices_of_takeCommand h
      · obtain kept | removed := ackNoticeEffect_notices subject count s
        · exact same ▸ kept ▸ hs
        · exact same ▸ removed ▸ law_removeHead hs
      · exact same ▸ hs
    | _ => exact nomatch hi

/-- Settles O55: every command and event makes posts, resets the queue, or reads or acknowledges its
head, and a period and a drawn free value do not touch it. -/
theorem noticeLawKept : Obligations.NoticeLawKept := by
  intro s t hs h
  unfold step at h
  split at h
  · next rest _ => exact law_exec (s := s.withPending rest) hs h
  · have drawn : s.nextMove.2.notices = s.notices := by
      obtain same | same := SilenceTimers.nextMove_state s <;> rw [same]
      rfl
    generalize s.nextMove = own at h drawn
    obtain ⟨m, u⟩ := own
    have hu : u.notices.Law := by rwa [drawn]
    cases m with
    | event i => exact law_exec hu h
    | period =>
      cases h
      exact hu

end Sys2Proof.Machine.NoticePosts

/-! Transactions and their characters, and the layouts of the commands (R178 to R181, R195). -/

namespace Sys2Proof.Machine.LocalPort

variable {c : Byte} {i : Instr} {p : Port}

/-! ## The edges of CS# (R178, R181) -/

theorem openTransaction_of_high (high : p.csLow = false) : p.openTransaction =
    { p with transaction := .command, csLow := true, buffer := [], reply := .none, miso := some 0 } :=
  if_neg (by rw [high]; exact Bool.false_ne_true)

theorem openTransaction_of_low (low : p.csLow = true) : p.openTransaction = p := if_pos low

theorem closeTransaction_of_low (low : p.csLow = true) : p.closeTransaction =
    { p with transaction := .closed, csLow := false, buffer := [], reply := .none, miso := none } :=
  if_pos low

theorem closeTransaction_of_high (high : p.csLow = false) : p.closeTransaction = p :=
  if_neg (by rw [high]; exact Bool.false_ne_true)

theorem exec_transactionOpen {s : State} {q : Port} (h : s.port.openTransaction = q) :
    exec .transactionOpen s = .next { s with port := q } := h ▸ rfl

theorem exec_transactionClose {s : State} {q : Port} (h : s.port.closeTransaction = q) :
    exec .transactionClose s = .next { s with port := q } := h ▸ rfl

/-! ## Characters in COMMAND (R179, R180) -/

theorem completeCommand_of_free (free : p.complete = none) :
    p.completeCommand i = { p with complete := some i, reply := .awaitsComplete } := by
  unfold Port.completeCommand
  rw [free]

theorem completeCommand_of_waiting (waiting : p.complete ≠ none) (unheld : p.held = none) :
    p.completeCommand i = { p with held := some i, reply := .awaitsHeld } := by
  obtain ⟨j, complete⟩ := Option.ne_none_iff_exists'.1 waiting
  unfold Port.completeCommand
  rw [complete, unheld]

theorem completeCommand_of_full (waiting : p.complete ≠ none) (held : p.held ≠ none) :
    p.completeCommand i = { p with reply := .discarded } := by
  obtain ⟨j, complete⟩ := Option.ne_none_iff_exists'.1 waiting
  obtain ⟨h, held⟩ := Option.ne_none_iff_exists'.1 held
  unfold Port.completeCommand
  rw [complete, held]

theorem commandCharacter_of_missing (fillers : Nat)
    (missing : parseCommand (p.buffer ++ [c]) = none) :
    p.commandCharacter fillers c = { p with buffer := p.buffer ++ [c], miso := some 0 } := by
  simp only [Port.commandCharacter, missing]

theorem commandCharacter_of_complete {q : Port} (fillers : Nat)
    (complete : parseCommand (p.buffer ++ [c]) = some i)
    (queued : Port.completeCommand i { p with buffer := p.buffer ++ [c], miso := some 0 } = q) :
    p.commandCharacter fillers c = { q with transaction := .response, fillers := fillers } := by
  simp only [Port.commandCharacter, complete, queued]

theorem exec_portCharacter_of_command {s : State} {q : Port} (command : s.port.transaction = .command)
    (h : s.port.commandCharacter (Config.fillerCount s.freeCount) c = q) :
    exec (.portCharacter c) s = .next { s with port := q, freeCount := s.freeCount + 1 } := by
  subst h
  show execPortCharacter c s = _
  unfold execPortCharacter
  rw [command]

/-! ## Characters in RESPONSE and CLOSED (R178, R179) -/

theorem responseCharacter_of_answer {b : Byte} {rest : List Byte} (ready : p.reply = .ready (b :: rest))
    (fillers : p.fillers = 0) :
    p.responseCharacter = { p with miso := some b, reply := .ready rest } := by
  simp only [Port.responseCharacter, ready, fillers, if_true]

theorem responseCharacter_of_filler {b : Byte} {rest : List Byte} {n : Nat}
    (ready : p.reply = .ready (b :: rest)) (fillers : p.fillers = n + 1) :
    p.responseCharacter = { p with miso := some 0, fillers := n } := by
  simp only [Port.responseCharacter, ready, fillers, Nat.add_eq_zero_iff, Nat.one_ne_zero, and_false,
    if_false, Nat.add_sub_cancel]

theorem responseCharacter_of_silent (silent : ∀ b rest, p.reply ≠ .ready (b :: rest)) :
    p.responseCharacter = { p with miso := some 0 } := by
  unfold Port.responseCharacter
  split
  · next b rest ready => exact absurd ready (silent b rest)
  all_goals rfl

theorem exec_portCharacter_of_response {s : State} {q : Port}
    (response : s.port.transaction = .response) (h : s.port.responseCharacter = q) :
    exec (.portCharacter c) s = .next { s with port := q } := by
  subst h
  show execPortCharacter c s = _
  unfold execPortCharacter
  rw [response]
  rfl

theorem exec_portCharacter_of_closed {s : State} (closed : s.port.transaction = .closed) :
    exec (.portCharacter c) s = .next s := by
  show execPortCharacter c s = _
  unfold execPortCharacter
  rw [closed]

/-- Settles O5: the edges by the level of CS#, the characters by the state of the transaction. -/
theorem transactionsAndCharacters : Obligations.TransactionsAndCharacters := by
  refine ⟨fun s => ⟨fun high => ?_, fun low => ?_, fun low => ?_, fun high => ?_⟩,
    fun c s command => ⟨fun missing => ?_, fun i complete =>
      ⟨Config.fillerCount s.freeCount, fun free => ?_, fun waiting unheld => ?_,
        fun waiting held => ?_⟩⟩,
    fun c s => ⟨fun response => ⟨fun b rest ready fillers => ?_, fun b rest n ready fillers => ?_,
      fun silent => ?_⟩, exec_portCharacter_of_closed⟩⟩
  · exact exec_transactionOpen (openTransaction_of_high high)
  · exact exec_transactionOpen (openTransaction_of_low low)
  · exact exec_transactionClose (closeTransaction_of_low low)
  · exact exec_transactionClose (closeTransaction_of_high high)
  · exact exec_portCharacter_of_command command (commandCharacter_of_missing _ missing)
  · exact exec_portCharacter_of_command command
      (commandCharacter_of_complete _ complete (completeCommand_of_free free))
  · exact exec_portCharacter_of_command command
      (commandCharacter_of_complete _ complete (completeCommand_of_waiting waiting unheld))
  · exact exec_portCharacter_of_command command
      (commandCharacter_of_complete _ complete (completeCommand_of_full waiting held))
  · exact exec_portCharacter_of_response response (responseCharacter_of_answer ready fillers)
  · exact exec_portCharacter_of_response response (responseCharacter_of_filler ready fillers)
  · exact exec_portCharacter_of_response response (responseCharacter_of_silent silent)

/-! ## The layouts (R195) -/

theorem ite_some_eq_some {α : Type} {q : Prop} [Decidable q] {a b : α} {x : Option α} :
    (if q then some a else x) = some b ↔ q ∧ b = a ∨ ¬ q ∧ x = some b := by
  split <;> simp [*, eq_comm]

theorem ite_some_eq_none {α : Type} {q : Prop} [Decidable q] {a : α} {x : Option α} :
    (if q then some a else x) = none ↔ ¬ q ∧ x = none := by
  split <;> simp [*]

/-- The commands with arguments (R195). -/
theorem argumentCount_pos {n : Nat} (count : argumentCount c = some n) (pos : 0 < n) :
    c = 0x10 ∧ n = 7 ∨ c = 0x11 ∧ n = 2 ∨ c = 0x20 ∧ n = 5 ∨ c = 0x21 ∧ n = 1 ∨ c = 0x22 ∧ n = 2
      ∨ c = 0x23 ∧ n = 1 ∨ c = 0x31 ∧ n = 2 ∨ c = 0x42 ∧ n = 2 := by
  simp only [argumentCount, ite_some_eq_some, reduceCtorEq, and_false, or_false, Nat.ne_of_gt pos] at count
  grind

/-- A character with no argument count is none of those that `parseCommand` asks for. -/
theorem parseCommand_of_unknown (unknown : argumentCount c = none) :
    parseCommand [c] = some (.unknownCommand c) := by
  simp only [argumentCount, ite_some_eq_none, and_true] at unknown
  simp only [parseCommand, unknown, if_false]

/-- A command waits for its arguments: each layout matches argument lists of one length only. -/
theorem parseCommand_of_missing {args : List Byte} {n : Nat} (count : argumentCount c = some n)
    (missing : args.length < n) : parseCommand (c :: args) = none := by
  obtain ⟨rfl, rfl⟩ | ⟨rfl, rfl⟩ | ⟨rfl, rfl⟩ | ⟨rfl, rfl⟩ | ⟨rfl, rfl⟩ | ⟨rfl, rfl⟩ | ⟨rfl, rfl⟩
    | ⟨rfl, rfl⟩ := argumentCount_pos count (Nat.zero_lt_of_lt missing)
  all_goals
    simp only [parseCommand, reduceIte, BitVec.reduceEq]
    split
    · simp at missing
    · rfl

/-- Settles O6. -/
theorem commandLayouts : Obligations.CommandLayouts :=
  ⟨fun _ _ _ _ _ _ _ => rfl, fun _ _ => rfl, rfl, rfl, fun _ _ _ _ _ => rfl, fun _ => rfl,
    fun _ _ => rfl, fun _ => rfl, rfl, fun _ _ => rfl, rfl, rfl, fun _ _ => rfl, rfl,
    fun _ => parseCommand_of_unknown, fun _ _ _ => parseCommand_of_missing⟩

end Sys2Proof.Machine.LocalPort

/-! The answers to the commands of the port and the queueing of commands (R180, R182, R183), and
CONFIGURE and DEFINE-RESOURCE (R187, R188). -/

namespace Sys2Proof.Machine.LocalPort

variable {c : Byte} {i : Instr} {s : State} {p : Port} {keep : Option Byte} {status : Status}
  {data : List Byte}

/-! ## The port after a command is taken (R180, R182) -/

theorem taken_last (c : Byte) (status : Status) (data : List Byte) (p : Port) :
    (p.taken (some c) status data).last = some { command := c, status := status, data := data } := by
  unfold Port.taken
  cases p.complete <;> rfl

theorem taken_unkept_last (status : Status) (data : List Byte) (p : Port) :
    (p.taken none status data).last = p.last := by
  unfold Port.taken
  cases p.complete <;> rfl

/-- A command that did not stand complete leaves the commands that wait and the transaction alone. -/
theorem taken_of_row (row : p.complete = none) :
    (p.taken keep status data).complete = none ∧ (p.taken keep status data).held = p.held
      ∧ (p.taken keep status data).reply = p.reply := by
  cases keep <;> simp [Port.taken, row]

/-- The answer to the complete command: the held one becomes complete, and the answer is ready for the
transaction that awaits it. -/
theorem taken_of_complete (complete : p.complete = some i) :
    (p.taken keep status data).complete = p.held ∧ (p.taken keep status data).held = none
      ∧ (p.reply = .awaitsComplete →
          (p.taken keep status data).reply = .ready (answerBytes status data))
      ∧ (p.reply = .awaitsHeld → (p.taken keep status data).reply = .awaitsComplete) := by
  unfold Port.taken Port.answered
  rw [complete]
  cases keep <;> refine ⟨rfl, rfl, fun awaits => ?_, fun awaits => ?_⟩ <;> simp only [awaits]

theorem taken_unkept_of_row (row : p.complete = none) : p.taken none status data = p := by
  unfold Port.taken
  rw [row]

/-! ## What the effect of a command does to the port (R187, R188) -/

/-- The effect writes no more of the port than the configuration store. -/
def OnlyStore (effect : State → Effect) : Prop :=
  ∀ s, (effect s).after.port = { s.port with store := (effect s).after.port.store }

theorem onlyStore_of_untouched {effect : State → Effect}
    (untouched : ∀ s, (effect s).after.port = s.port) : OnlyStore effect :=
  fun s => by rw [untouched s]

theorem configureEffect_onlyStore (d : BitVec 16) (f : Byte) (timebase : BitVec 16) (p k : Byte) :
    OnlyStore (configureEffect d f timebase p k) := by
  intro s
  unfold configureEffect
  split
  · rfl
  · split
    · rfl
    · unfold State.configured
      dsimp only [State.answers]
      split <;> split <;> rfl

theorem defineEffect_onlyStore (resource limit : Byte) : OnlyStore (defineEffect resource limit) := by
  intro s
  unfold defineEffect
  split
  · rfl
  · split
    · split <;> rfl
    · rfl

theorem joinEffect_port (s : State) : (joinEffect s).after.port = s.port := by
  unfold joinEffect
  split <;> simp [State.answers]

theorem leaveEffect_port (s : State) : (leaveEffect s).after.port = s.port := by
  unfold leaveEffect
  split
  case h_2 => split <;> simp [State.answers]
  all_goals simp [State.answers]

theorem claimEffect_port (slot resource flags : Byte) (waitLimit : BitVec 16) (s : State) :
    (claimEffect slot resource flags waitLimit s).after.port = s.port := by
  unfold claimEffect
  repeat' split
  all_goals simp [State.answers]

theorem hostDrop_port (reason : DropReason) (k : RecordIndex) (s : State) :
    (s.hostDrop reason k).after.port = s.port := by
  unfold State.hostDrop
  split
  · split <;> simp [State.answers]
  all_goals simp [State.answers]

theorem dropEffect_port (record : Byte) (s : State) :
    (dropEffect record s).after.port = s.port := by
  unfold dropEffect
  repeat' split
  all_goals simp [State.answers, hostDrop_port]

theorem readClaimEffect_port (record option : Byte) (s : State) :
    (readClaimEffect record option s).after.port = s.port := by
  unfold readClaimEffect
  split
  · rfl
  · dsimp only
    split <;> rfl

theorem retireEffect_port (record : Byte) (s : State) :
    (retireEffect record s).after.port = s.port := by
  unfold retireEffect
  split
  · rfl
  · split <;> rfl

theorem readNoticeEffect_port (s : State) : (readNoticeEffect s).after.port = s.port := by
  unfold readNoticeEffect
  split <;> rfl

theorem ackNoticeEffect_port (subject count : Byte) (s : State) :
    (ackNoticeEffect subject count s).after.port = s.port := by
  unfold ackNoticeEffect
  repeat' split
  all_goals rfl

theorem readRosterEffect_port (s : State) : (readRosterEffect s).after.port = s.port := by
  unfold readRosterEffect
  split <;> rfl

theorem readResourceEffect_port (resource first : Byte) (s : State) :
    (readResourceEffect resource first s).after.port = s.port := by
  unfold readResourceEffect
  split
  · rfl
  · split <;> rfl

theorem repeatEffect_port (s : State) : (repeatEffect s).after.port = s.port := by
  unfold repeatEffect
  split <;> rfl

/-- Every command of the port is taken by `takeCommand`, with the character that it keeps. -/
theorem exec_hostCommand (host : i.hostCommand = true) :
    ∃ effect, exec i = takeCommand i i.keptCharacter effect ∧ OnlyStore effect := by
  cases i with
  | configure d f timebase p k => exact ⟨_, rfl, configureEffect_onlyStore d f timebase p k⟩
  | defineResource resource limit => exact ⟨_, rfl, defineEffect_onlyStore resource limit⟩
  | join => exact ⟨_, rfl, onlyStore_of_untouched joinEffect_port⟩
  | leave => exact ⟨_, rfl, onlyStore_of_untouched leaveEffect_port⟩
  | claim slot resource flags waitLimit =>
    exact ⟨_, rfl, onlyStore_of_untouched (claimEffect_port slot resource flags waitLimit)⟩
  | drop record => exact ⟨_, rfl, onlyStore_of_untouched (dropEffect_port record)⟩
  | readClaim record option =>
    exact ⟨_, rfl, onlyStore_of_untouched (readClaimEffect_port record option)⟩
  | retire record => exact ⟨_, rfl, onlyStore_of_untouched (retireEffect_port record)⟩
  | readNotice => exact ⟨_, rfl, onlyStore_of_untouched readNoticeEffect_port⟩
  | ackNotice subject count =>
    exact ⟨_, rfl, onlyStore_of_untouched (ackNoticeEffect_port subject count)⟩
  | readStatus => exact ⟨readStatusEffect, rfl, onlyStore_of_untouched fun _ => rfl⟩
  | readRoster => exact ⟨_, rfl, onlyStore_of_untouched readRosterEffect_port⟩
  | readResource resource first =>
    exact ⟨_, rfl, onlyStore_of_untouched (readResourceEffect_port resource first)⟩
  | repeatResponse => exact ⟨_, rfl, onlyStore_of_untouched repeatEffect_port⟩
  | unknownCommand c => exact ⟨unknownEffect, rfl, onlyStore_of_untouched fun _ => rfl⟩
  | _ => exact nomatch host

theorem hostCommand_of_keptCharacter (kept : i.keptCharacter = some c) : i.hostCommand = true := by
  cases i with
  | configure _ _ _ _ _ | defineResource _ _ | join | leave | claim _ _ _ _ | drop _
  | readClaim _ _ | retire _ | readNotice | ackNotice _ _ | readStatus | readRoster
  | readResource _ _ | repeatResponse | unknownCommand _ => rfl
  | _ => exact nomatch kept

/-! ## Commands held or discarded, and REPEAT-RESPONSE (R180, R182) -/

theorem hold_of_unheld (unheld : p.held = none) : p.hold i = { p with held := some i } := by
  unfold Port.hold
  rw [unheld]

theorem hold_of_held {j : Instr} (held : p.held = some j) : p.hold i = p := by
  unfold Port.hold
  rw [held]

theorem exec_hostCommand_of_other {j : Instr} (host : i.hostCommand = true)
    (complete : s.port.complete = some j) (other : j ≠ i) :
    exec i s = .next (s.mapPort (Port.hold i)) := by
  obtain ⟨effect, taken, -⟩ := exec_hostCommand host
  rw [taken]
  exact takeCommand_of_other _ _ complete other

theorem repeatEffect_of_kept {a : Answer} (last : s.port.last = some a) :
    repeatEffect s = ⟨s, a.status, a.command :: a.data⟩ := by
  unfold repeatEffect
  rw [last]

theorem repeatEffect_of_none (last : s.port.last = none) : repeatEffect s = s.answers .empty := by
  unfold repeatEffect
  rw [last]

theorem repeatEffect_after (s : State) : (repeatEffect s).after = s := by
  unfold repeatEffect
  split <;> rfl

theorem exec_repeatResponse (takes : s.Takes .repeatResponse) :
    exec .repeatResponse s = .next
      (s.mapPort (Port.taken none (repeatEffect s).status (repeatEffect s).data)) := by
  show takeCommand _ _ _ s = _
  rw [takeCommand_of_takes _ _ takes, repeatEffect_after]

/-- Settles O7: the port after a command, which the command's effect has left to be answered. -/
theorem commandAnswersAndQueueing : Obligations.CommandAnswersAndQueueing := by
  refine ⟨fun i c s kept takes => ?_, fun i j s host complete other => ⟨fun unheld => ?_,
    fun h held => ?_⟩, fun s => ⟨fun row => ?_, fun complete => ?_, fun c takes => ?_⟩⟩
  · obtain ⟨effect, taken, onlyStore⟩ := exec_hostCommand (hostCommand_of_keptCharacter kept)
    rw [taken, kept, takeCommand_of_takes _ _ takes]
    refine ⟨_, _, _, rfl, taken_last _ _ _ _, fun row => ?_, fun complete => ?_⟩
    · rw [State.mapPort_port, onlyStore]
      exact taken_of_row (p := { s.port with store := _ }) row
    · rw [State.mapPort_port, onlyStore]
      exact taken_of_complete (p := { s.port with store := _ }) complete
  · rw [exec_hostCommand_of_other host complete other, State.mapPort, hold_of_unheld unheld]
  · rw [exec_hostCommand_of_other host complete other, State.mapPort, hold_of_held held]
  · rw [exec_repeatResponse (.inl row), State.mapPort, taken_unkept_of_row row]
  · obtain ⟨next, unheld, ready, -⟩ := taken_of_complete (keep := none)
      (status := (repeatEffect s).status) (data := (repeatEffect s).data) complete
    refine ⟨_, exec_repeatResponse (.inr complete), rfl, taken_unkept_last _ _ _, next, unheld,
      fun awaits => ⟨fun a last => ?_, fun last => ?_⟩⟩
    · rw [State.mapPort_port, ready awaits, repeatEffect_of_kept last]
      rfl
    · rw [State.mapPort_port, ready awaits, repeatEffect_of_none last]
      rfl
  · exact LocalClaims.takeCommand_of_effect takes rfl

/-! ## CONFIGURE (R63, R135, R186, R187, R189) -/

section
variable {d tb : BitVec 16} {f p k : Byte}

theorem configureInRange_iff : configureInRange d f tb p k = true ↔
    16 ≤ d.toNat ∧ d.toNat ≤ 4095 ∧ f.toNat ≤ 7 ∧ 1000 ≤ tb.toNat ∧ tb.toNat ≤ 32000
      ∧ 1 ≤ p.toNat ∧ 3 ≤ k.toNat ∧ k.toNat ≤ 15 := by
  simp [configureInRange, and_assoc]

theorem exec_configure {t : State} (takes : s.Takes (.configure d f tb p k))
    (he : configureEffect d f tb p k s = t.answers status) :
    exec (.configure d f tb p k) s = .next (t.answered 0x10 status []) :=
  LocalClaims.takeCommand_of_effect takes he

theorem configureEffect_of_wrongState (online : s.ctrl.station ≠ .offline) :
    configureEffect d f tb p k s = s.answers .wrongState := if_pos online

theorem configureEffect_of_badArgument (offline : s.ctrl.station = .offline)
    (bad : ¬ configureInRange d f tb p k = true) :
    configureEffect d f tb p k s = s.answers .badArgument := by
  unfold configureEffect
  rw [if_neg (not_not_intro offline), if_pos (by simpa using bad)]

theorem configureEffect_of_inRange (offline : s.ctrl.station = .offline)
    (good : configureInRange d f tb p k = true) :
    configureEffect d f tb p k s = (s.configured d f tb p k).answers .ok := by
  unfold configureEffect
  rw [if_neg (not_not_intro offline), if_neg (by simp [good])]

/-- What each of the three restarts depends on: D and F, and the divisor. -/
theorem configured_eq (d : BitVec 16) (f : Byte) (tb : BitVec 16) (p k : Byte) (s : State) :
    s.configured d f tb p k =
      { s with
        line := if s.port.store.d = d.toNat ∧ s.port.store.f = f.toNat then s.line else s.line.restart,
        ctrl := if s.port.store.d = d.toNat ∧ s.port.store.f = f.toNat then s.ctrl
          else { s.ctrl with lineFault := false },
        timebase := if s.port.store.timebase = tb.toNat then s.timebase else 0,
        port := { s.port with store :=
          { d := d.toNat, f := f.toNat, timebase := tb.toNat, p := p.toNat, k := k.toNat,
            limits := s.port.store.limits } } } := by
  unfold State.configured
  by_cases same : s.port.store.d = d.toNat ∧ s.port.store.f = f.toNat <;>
    by_cases divisor : s.port.store.timebase = tb.toNat <;>
      simp only [same, divisor, and_self, if_true, if_false] <;> rfl

end

/-! ## DEFINE-RESOURCE (R188) -/

section
variable {resource limit : Byte}

theorem exec_defineResource {t : State} (takes : s.Takes (.defineResource resource limit))
    (he : defineEffect resource limit s = t.answers status) :
    exec (.defineResource resource limit) s = .next (t.answered 0x11 status []) :=
  LocalClaims.takeCommand_of_effect takes he

theorem defineEffect_of_wrongState (online : s.ctrl.station ≠ .offline) :
    defineEffect resource limit s = s.answers .wrongState := if_pos online

theorem defineEffect_of_badArgument (offline : s.ctrl.station = .offline)
    (bad : 63 < resource.toNat ∨ 16 < limit.toNat) :
    defineEffect resource limit s = s.answers .badArgument := by
  unfold defineEffect
  rw [if_neg (not_not_intro offline)]
  cases named : resourceOf resource with
  | none => rfl
  | some r =>
    have inRange : ¬ 63 < resource.toNat := fun h => by
      rw [resourceOf_eq_none.2 h] at named
      cases named
    exact if_neg (Nat.not_le.2 (bad.resolve_left inRange))

theorem defineEffect_of_inRange {r : Resource} (offline : s.ctrl.station = .offline)
    (hr : r.val = resource.toNat) (inRange : limit.toNat ≤ 16) :
    defineEffect resource limit s = (s.mapPort fun x =>
      { x with store := { x.store with limits := x.store.limits.set r limit.toNat } }).answers .ok := by
  unfold defineEffect
  rw [if_neg (not_not_intro offline), resourceOf_eq_some.2 hr]
  exact if_pos inRange

end

/-- Settles O8: the refusals in their order, and the store with what it restarts. -/
theorem configurationCommands : Obligations.ConfigurationCommands := by
  refine ⟨fun d tb f p k s takes => ⟨fun online => ?_, fun offline bad => ?_, fun offline good => ?_⟩,
    fun resource limit s takes => ⟨fun online => ?_, fun offline bad => ?_,
      fun offline r hr inRange => ?_⟩⟩
  · exact exec_configure takes (configureEffect_of_wrongState online)
  · exact exec_configure takes
      (configureEffect_of_badArgument offline (mt configureInRange_iff.1 bad))
  · rw [exec_configure takes (configureEffect_of_inRange offline (configureInRange_iff.2 good)),
      configured_eq]
    rfl
  · exact exec_defineResource takes (defineEffect_of_wrongState online)
  · exact exec_defineResource takes (defineEffect_of_badArgument offline bad)
  · exact exec_defineResource takes (defineEffect_of_inRange offline hr inRange)

end Sys2Proof.Machine.LocalPort

/-! READ-STATUS, READ-ROSTER and READ-RESOURCE, and the tick of the timebase (R189, R192 to R194). -/

namespace Sys2Proof.Machine.LocalPort

variable {s : State}

/-! ## Reading the station (R192 to R194, R196) -/

theorem exec_readStatus (takes : s.Takes .readStatus) :
    exec .readStatus s = .next (s.answered 0x40 .ok s.statusData) :=
  takeCommand_of_answers readStatusEffect takes rfl

theorem readRosterEffect_of_present (present : s.table.condition = .present) :
    readRosterEffect s
      = ⟨s, .ok, byteOf s.table.roster.length :: s.table.roster.map fun x => byteOf x.val⟩ :=
  if_pos present

theorem readRosterEffect_of_wrongState (missing : s.table.condition ≠ .present) :
    readRosterEffect s = s.answers .wrongState := if_neg missing

/-- The flags of an entry stand above the record index, so joining them is adding them. -/
theorem entryFlags_eq_sum : ∀ (k : RecordIndex) (granted exclusive : Bool),
    byteOf k.val ||| bitFlag 6 granted ||| bitFlag 7 exclusive
      = byteOf (k.val + (if granted then 64 else 0) + (if exclusive then 128 else 0)) := by
  decide

theorem entryData_eq (e : Entry) : entryData e =
    [ byteOf e.station.val,
      byteOf (e.record.val + (if e.granted then 64 else 0)
        + (if e.mode = .exclusive then 128 else 0)), 0 ] := by
  unfold entryData
  rw [entryFlags_eq_sum]
  simp only [decide_eq_true_eq]

section
variable {resource first : Byte}

theorem readResourceEffect_of_wrongState (missing : s.table.condition ≠ .present) :
    readResourceEffect resource first s = s.answers .wrongState := if_pos missing

theorem readResourceEffect_of_badArgument (present : s.table.condition = .present)
    (bad : 63 < resource.toNat) :
    readResourceEffect resource first s = s.answers .badArgument := by
  unfold readResourceEffect
  rw [if_neg (not_not_intro present), resourceOf_eq_none.2 bad]

theorem readResourceEffect_of_named {r : Resource} (present : s.table.condition = .present)
    (hr : r.val = resource.toNat) : readResourceEffect resource first s =
      ⟨s, .ok, [ byteOf s.table.limits[r], byteOf s.table.queues[r].length, first,
          lowByte s.table.tseq, highByte s.table.tseq ]
        ++ ((s.table.queues[r].drop first.toNat).take 80).flatMap entryData⟩ := by
  unfold readResourceEffect
  rw [if_neg (not_not_intro present), resourceOf_eq_some.2 hr]

end

/-- Settles O17: the characters of the two answers, and the tables of codes. -/
theorem statusAndResourceRead : Obligations.StatusAndResourceRead := by
  refine ⟨fun s takes => ?_, fun resource first s takes => ⟨fun missing => ?_,
    fun present bad => ?_, fun present r hr => ?_⟩,
    rfl, rfl, rfl, rfl, rfl, rfl, rfl, fun _ => rfl⟩
  · rw [exec_readStatus takes, State.statusData]
    cases s.ctrl.lastDetach <;> rfl
  · exact takeCommand_of_answers _ takes (readResourceEffect_of_wrongState missing)
  · exact takeCommand_of_answers _ takes (readResourceEffect_of_badArgument present bad)
  · simp only [← entryData_eq]
    exact takeCommand_of_answers _ takes (readResourceEffect_of_named present hr)

/-- Settles O18: the answer by the condition of the replica. -/
theorem readRosterAnswer : Obligations.ReadRosterAnswer :=
  fun _ takes => ⟨fun present => takeCommand_of_answers _ takes (readRosterEffect_of_present present),
    fun missing => takeCommand_of_answers _ takes (readRosterEffect_of_wrongState missing),
    fun whole => by rw [List.length_cons, List.length_map, whole]⟩

/-! ## The tick (R105, R134, R163, R189) -/

/-- A tick takes 1 from a running timer with time left, and leaves every other timer as it is. -/
theorem tick_timer (timer : Timer) :
    (∀ n, timer = .running (n + 1) → timer.tick = .running n)
      ∧ (∀ n, timer = .frozen n → timer.tick = .frozen n)
      ∧ (timer = .running 0 → timer.tick = .running 0)
      ∧ (timer = .stopped → timer.tick = .stopped) :=
  ⟨fun _ => congrArg Timer.tick, fun _ => congrArg Timer.tick, congrArg Timer.tick,
    congrArg Timer.tick⟩

theorem tick_silence_of_running (n : Nat) :
    (some (SilenceTimer.running (n + 1))).map SilenceTimer.tick = some (.running n) := rfl

theorem tick_silence_of_other {timer : Option SilenceTimer}
    (other : ∀ n, timer ≠ some (.running (n + 1))) : timer.map SilenceTimer.tick = timer := by
  rcases timer with _ | (_ | n) | n | _
  case some.running.succ => exact absurd rfl (other n)
  all_goals rfl

theorem tick_record_of_running {r : ClaimRecord} {n : Nat} (running : r.waitTimer = some (n + 1)) :
    r.tick = { r with waitTimer := some n } := by
  simp only [ClaimRecord.tick, running, Option.map_some, Nat.add_sub_cancel]

theorem tick_record_of_other {r : ClaimRecord} (other : ∀ n, r.waitTimer ≠ some (n + 1)) :
    r.tick = r := by
  have kept : (r.waitTimer.map fun n => n - 1) = r.waitTimer := by
    rcases h : r.waitTimer with _ | _ | n
    · rfl
    · rfl
    · exact absurd h (other n)
  rw [ClaimRecord.tick, kept]

theorem exec_timebaseTick (due : s.port.store.timebase ≤ s.timebase) :
    exec .timebaseTick s = .next s.tickEffect :=
  whenDue_of_due _ _ (decide_eq_true due)

/-- Settles O19, timer by timer. -/
theorem timebaseTickCountsTimers : Obligations.TimebaseTickCountsTimers := by
  refine fun s due => ⟨s.tickEffect, exec_timebaseTick due, rfl, rfl, fun timer which => ?_,
    fun x => ?_, fun k => ?_⟩
  · have ticked : timer s.tickEffect.ctrl = (timer s.ctrl).tick := by
      rcases which with rfl | rfl | rfl | rfl | rfl <;> rfl
    rw [ticked]
    exact tick_timer _
  · have ticked : s.tickEffect.ctrl.silence[x] = s.ctrl.silence[x].map SilenceTimer.tick :=
      Vector.getElem_map ..
    rw [ticked]
    exact ⟨fun n running => by rw [running, tick_silence_of_running], tick_silence_of_other⟩
  · have ticked : s.tickEffect.records[k] = s.records[k].tick := Vector.getElem_map ..
    rw [ticked]
    exact ⟨fun n => tick_record_of_running, tick_record_of_other⟩

end Sys2Proof.Machine.LocalPort

/-! What the withdrawal of one claim leaves of another record and of its frames, and what the change to
LEAVING makes of each record (R67, R78, R141, R162, R168). -/

namespace Sys2Proof.Machine.LocalPort

variable {s t u : State} {j k : RecordIndex} {e : TxEntry}

/-! ## The frames of a record in the queue (R64, R78) -/

/-- The entries of the transmit queue that the record owns. -/
def frames (k : RecordIndex) (s : State) : List TxEntry := s.tx.queue.filter (ofRecord k)

theorem mem_frames : e ∈ frames k s ↔ e ∈ s.tx.queue ∧ e.owner = .claimUnit k := by
  rw [frames, List.mem_filter, ofRecord, decide_eq_true_eq]

theorem not_ofRecord_of_ofRecord (other : j ≠ k) (owner : ofRecord j e = true) :
    ofRecord k e = false := by
  simp only [ofRecord, decide_eq_true_eq, decide_eq_false_iff_not] at *
  rw [owner, FrameOwner.claimUnit.injEq]
  exact other

theorem ofRecord_markCancelled (named : TxEntry → Bool) (e : TxEntry) :
    ofRecord k (markCancelled named e) = ofRecord k e := by
  unfold markCancelled
  split <;> rfl

theorem markCancelled_of_not_named {named : TxEntry → Bool} (h : named e = false) :
    markCancelled named e = e := by
  simp only [markCancelled, h, Bool.false_and, Bool.false_eq_true, if_false]

theorem filter_eraseP_of_other (other : j ≠ k) (queue : List TxEntry) :
    (queue.eraseP (ofRecord j)).filter (ofRecord k) = queue.filter (ofRecord k) := by
  induction queue with
  | nil => rfl
  | cons e rest ih =>
    cases owner : ofRecord j e with
    | true =>
      rw [List.eraseP_cons_of_pos owner,
        List.filter_cons_of_neg (by simp [not_ofRecord_of_ofRecord other owner])]
    | false => rw [List.eraseP_cons_of_neg (by simp [owner]), List.filter_cons, ih, List.filter_cons]

theorem filter_markCancelled_of_other (other : j ≠ k) (queue : List TxEntry) :
    (queue.map (markCancelled (ofRecord j))).filter (ofRecord k) = queue.filter (ofRecord k) := by
  induction queue with
  | nil => rfl
  | cons e rest ih =>
    rw [List.map_cons, List.filter_cons, ofRecord_markCancelled, ih, List.filter_cons]
    cases owner : ofRecord j e with
    | true => simp only [not_ofRecord_of_ofRecord other owner, Bool.false_eq_true, if_false]
    | false => rw [markCancelled_of_not_named owner]

/-- No frame of a record joins the queue while its DROP is not owed. -/
theorem handOut_frames (quiet : s.records[k].owedDrop = false) : frames k s.handOut = frames k s := by
  obtain ⟨extra, queue, owed⟩ := s.handOut_extra
  have none : extra.filter (ofRecord k) = [] := by
    rw [List.filter_eq_nil_iff]
    intro e he own
    obtain ⟨o, owes, rfl⟩ := owed e he
    cases o with
    | drop i =>
      simp only [ofRecord, TxEntry.fresh, OwedFrame.owner, decide_eq_true_eq,
        FrameOwner.claimUnit.injEq] at own
      subst own
      exact Bool.false_ne_true (quiet.symm.trans owes)
    | _ => exact nomatch of_decide_eq_true own
  rw [frames, queue, List.filter_append, none, List.append_nil, frames]

/-! ## What the withdrawal of another record leaves -/

/-- From `s` to `u` the record changes no more than by the queueing of its owed DROP; where none is owed,
neither it nor its frames change. -/
structure Untouched (k : RecordIndex) (s u : State) : Prop where
  record : u.records[k] =
    { s.records[k] with owedDrop := u.records[k].owedDrop, mark := u.records[k].mark }
  quiet : s.records[k].owedDrop = false → u.records[k] = s.records[k] ∧ frames k u = frames k s

theorem Untouched.of_same (record : u.records[k] = s.records[k]) (same : frames k u = frames k s) :
    Untouched k s u :=
  ⟨by rw [record], fun _ => ⟨record, same⟩⟩

theorem Untouched.trans (h : Untouched k s t) (g : Untouched k t u) : Untouched k s u where
  record := by
    have hrecord := h.record
    have grecord := g.record
    rw [hrecord] at grecord
    exact grecord
  quiet := fun quiet => by
    obtain ⟨hrecord, hframes⟩ := h.quiet quiet
    obtain ⟨grecord, gframes⟩ := g.quiet (by rw [hrecord, quiet])
    exact ⟨grecord.trans hrecord, gframes.trans hframes⟩

theorem untouched_handOut (k : RecordIndex) (s : State) : Untouched k s s.handOut :=
  ⟨s.handOut_same.record k, fun quiet => ⟨s.handOut_record_of_not_owed k quiet, handOut_frames quiet⟩⟩

theorem getElem_set_of_other (other : j ≠ k) (records : Vector ClaimRecord 32) (r : ClaimRecord) :
    (records.set j r)[k] = records[k] :=
  Vector.getElem_set_ne j.isLt k.isLt fun h => other (Fin.ext h)

theorem untouched_mapRecord (other : j ≠ k) (f : ClaimRecord → ClaimRecord) (s : State) :
    Untouched k s (s.mapRecord j f) :=
  .of_same (getElem_set_of_other other _ _) rfl

theorem untouched_cancel (other : j ≠ k) (s : State) : Untouched k s (s.cancel (ofRecord j)).1 := by
  unfold State.cancel
  split
  · exact .of_same rfl rfl
  · split
    · exact .of_same rfl (filter_markCancelled_of_other other _)
    · have erased : Untouched k s (s.mapTx fun t => { t with queue := t.queue.eraseP (ofRecord j) }) :=
        .of_same rfl (filter_eraseP_of_other other _)
      exact erased.trans (untouched_handOut k _)

theorem untouched_withdrawQueued (other : j ≠ k) (reason : CancelReason) (s : State) :
    Untouched k s (s.withdrawQueued reason j) := by
  have stopped := untouched_mapRecord other (fun r => { r with waitTimer := none }) s
  have cancelled := stopped.trans (untouched_cancel other _)
  unfold State.withdrawQueued
  dsimp only
  split
  · split <;> next heq =>
      rw [heq] at cancelled
      exact cancelled.trans (.of_same (getElem_set_of_other other _ _) rfl)
  · exact stopped.trans (untouched_mapRecord other _ _)
  · exact stopped.trans (untouched_mapRecord other _ _)

theorem untouched_withdrawOnLeaving (other : j ≠ k) (s : State) :
    Untouched k s (s.withdrawOnLeaving j) := by
  unfold State.withdrawOnLeaving
  split
  · exact untouched_withdrawQueued other _ s
  · exact .of_same rfl rfl

theorem untouched_withdrawOnLeaving_all {ks : List RecordIndex} (others : k ∉ ks) (s : State) :
    Untouched k s (ks.foldl State.withdrawOnLeaving s) := by
  induction ks generalizing s with
  | nil => exact .of_same rfl rfl
  | cons j ks ih =>
    obtain ⟨first, rest⟩ := not_or.1 (mt List.mem_cons.2 others)
    exact (untouched_withdrawOnLeaving (Ne.symm first) s).trans (ih rest _)

/-- MEMBER at the change to LEAVING, before any claim is withdrawn (R141). -/
def leavingEntered (s : State) : State :=
  (s.mapCtrl fun c => { c with leaveMark := true, owed := { c.owed with leave := true } }).enter .leaving

theorem untouched_leavingEntered (k : RecordIndex) (s : State) : Untouched k s (leavingEntered s) := by
  have marked : Untouched k s (s.mapCtrl fun c =>
      { c with leaveMark := true, owed := { c.owed with leave := true }, station := .leaving }) :=
    .of_same rfl rfl
  exact marked.trans (untouched_handOut k _)

theorem startLeaving_eq (s : State) :
    s.startLeaving = allRecords.foldl State.withdrawOnLeaving (leavingEntered s) := rfl

/-- The change to LEAVING does to each record what its own withdrawal does. -/
theorem startLeaving_at (k : RecordIndex) (s : State) :
    ∃ v, Untouched k s v ∧ Untouched k (v.withdrawOnLeaving k) s.startLeaving := by
  obtain ⟨before, after, all⟩ : ∃ before after, allRecords = before ++ k :: after :=
    List.append_of_mem (List.mem_finRange k)
  have distinct := GroupForming.allRecords_nodup
  rw [all, List.nodup_append] at distinct
  obtain ⟨-, last, first⟩ := distinct
  refine ⟨before.foldl State.withdrawOnLeaving (leavingEntered s),
    (untouched_leavingEntered k s).trans (untouched_withdrawOnLeaving_all
      (fun h => first k h k List.mem_cons_self rfl) _), ?_⟩
  rw [startLeaving_eq, all, List.foldl_append, List.foldl_cons]
  exact untouched_withdrawOnLeaving_all (List.nodup_cons.1 last).1 _

end Sys2Proof.Machine.LocalPort

/-! The outcomes of a withdrawal for the record, its frames and the notices, and JOIN and LEAVE by the
station state (R141, R143, R162, R168, R190). -/

namespace Sys2Proof.Machine.LocalPort

variable {s t u : State} {k : RecordIndex} {e : TxEntry}

/-! ## The frames of a record under the law of the queue (R64) -/

theorem frames_length (law : s.tx.Law) (k : RecordIndex) : (frames k s).length ≤ 1 := by
  obtain ⟨-, -, -, -, records, -⟩ := law
  rw [frames, ← List.countP_eq_length_filter]
  exact records k

theorem frames_eq_singleton (law : s.tx.Law) (queued : e ∈ s.tx.queue)
    (owner : e.owner = .claimUnit k) : frames k s = [e] := by
  obtain ⟨x, only⟩ := List.length_eq_one_iff.1
    (Nat.le_antisymm (frames_length law k) (List.length_pos_of_mem (mem_frames.2 ⟨queued, owner⟩)))
  have same : e ∈ frames k s := mem_frames.2 ⟨queued, owner⟩
  rw [only, List.mem_singleton] at same
  rw [only, same]

theorem owner_of_frames_nil (none : frames k s = []) : ∀ x ∈ s.tx.queue, x.owner ≠ .claimUnit k :=
  fun _ hx owner => List.not_mem_nil (none ▸ mem_frames.2 ⟨hx, owner⟩)

theorem frames_nil_of_owner (others : ∀ x ∈ s.tx.queue, x.owner ≠ .claimUnit k) :
    frames k s = [] :=
  List.eq_nil_iff_forall_not_mem.2 fun _ hx => others _ (mem_frames.1 hx).1 (mem_frames.1 hx).2

theorem filter_ofRecord_of_others {l : List TxEntry} (others : ∀ x ∈ l, x.owner ≠ .claimUnit k) :
    l.filter (ofRecord k) = [] :=
  List.filter_eq_nil_iff.2 fun x hx => by simp [ofRecord, others x hx]

/-- The place of the only frame of a record in the queue. -/
theorem queue_of_frames (only : frames k s = [e]) : ∃ before after,
    s.tx.queue = before ++ e :: after ∧ e.owner = .claimUnit k
      ∧ (∀ x ∈ before, x.owner ≠ .claimUnit k) ∧ ∀ x ∈ after, x.owner ≠ .claimUnit k := by
  obtain ⟨before, after, queue, first, own, last⟩ := List.filter_eq_cons_iff.1 only
  simp only [ofRecord, decide_eq_true_eq, List.filter_eq_nil_iff] at first own last
  exact ⟨before, after, queue, own, first, last⟩

/-! ## The outcomes of a withdrawal (R162, R168) -/

theorem mapRecord_record (k : RecordIndex) (f : ClaimRecord → ClaimRecord) (s : State) :
    (s.mapRecord k f).records[k] = f s.records[k] := Vector.getElem_set_self _

theorem changeRecord_record (k : RecordIndex) (f : ClaimRecord → ClaimRecord) (s : State) :
    (s.changeRecord k f).records[k] = f s.records[k] := Vector.getElem_set_self _

/-- A QUEUED claim ends or owes its cancel, whatever the queue holds. -/
theorem withdrawQueued_ends_or_owes (reason : CancelReason) (queued : s.records[k].state = .queued) :
    (s.withdrawQueued reason k).records[k].state = .done
      ∨ (s.withdrawQueued reason k).records[k].state = .queued
        ∧ (s.withdrawQueued reason k).records[k].cancelOwed.isSome = true := by
  have stopped : (s.mapRecord k fun r => { r with waitTimer := none }).records[k].state = .queued := by
    rw [mapRecord_record, queued]
  have cancelled := (congrArg ClaimRecord.state ((State.cancel_same (ofRecord k)
    (s.mapRecord k fun r => { r with waitTimer := none })).record k)).trans stopped
  unfold State.withdrawQueued
  dsimp only
  split
  · split <;> next heq =>
      rw [heq] at cancelled
      simp only [changeRecord_record, mapRecord_record, ClaimRecord.completed, cancelled,
        Option.isSome_some, and_self, or_true, true_or]
  all_goals
    simp only [mapRecord_record, queued, Option.isSome_some, and_self, or_true]

/-- With the CLAIM READY the record is DONE, its frame is gone and the change is posted. -/
theorem withdrawQueued_of_ready_frame (reason : CancelReason) (quiet : s.records[k].owedDrop = false)
    (mark : s.records[k].mark = .claim) (only : frames k s = [e]) (ready : e.state = .ready) :
    (s.withdrawQueued reason k).records[k]
        = { s.records[k].completed reason.outcome with mark := .none }
      ∧ frames k (s.withdrawQueued reason k) = []
      ∧ (s.withdrawQueued reason k).notices
        = s.notices.post (.slot s.records[k].slot) (byteOf k.val) := by
  obtain ⟨before, after, queue, own, first, last⟩ := queue_of_frames only
  rw [State.withdrawQueued_ready reason mark queue own first ready]
  refine ⟨Vector.getElem_set_self _, ?_, rfl⟩
  refine Eq.trans (handOut_frames ?_) (filter_ofRecord_of_others (List.forall_mem_append.2 ⟨first, last⟩))
  simpa using quiet

/-- With the CLAIM ACTIVE the entry takes the cancel mark, and the record owes its cancel. -/
theorem withdrawQueued_of_active_frame (reason : CancelReason) (mark : s.records[k].mark = .claim)
    (only : frames k s = [e]) (active : e.state = .active) :
    (s.withdrawQueued reason k).records[k]
        = { s.records[k] with waitTimer := none, cancelOwed := some reason }
      ∧ frames k (s.withdrawQueued reason k) = [{ e with cancel := true }]
      ∧ (s.withdrawQueued reason k).notices = s.notices := by
  obtain ⟨before, after, queue, own, first, last⟩ := queue_of_frames only
  rw [LocalClaims.withdrawQueued_of_active reason mark queue own first last active]
  refine ⟨Vector.getElem_set_self _, ?_, rfl⟩
  have here : ofRecord k { e with cancel := true } = true := decide_eq_true own
  show (before ++ { e with cancel := true } :: after).filter (ofRecord k) = _
  rw [List.filter_append, filter_ofRecord_of_others first, List.filter_cons_of_pos here,
    filter_ofRecord_of_others last, List.nil_append]

theorem withdrawQueued_of_no_entry (reason : CancelReason) (mark : s.records[k].mark = .claim)
    (none : frames k s = []) :
    (s.withdrawQueued reason k).records[k]
        = { s.records[k] with waitTimer := .none, cancelOwed := some reason, mark := .none }
      ∧ (s.withdrawQueued reason k).notices = s.notices := by
  rw [LocalClaims.withdrawQueued_of_no_frame reason (.inr ⟨mark, owner_of_frames_nil none⟩)]
  exact ⟨Vector.getElem_set_self _, rfl⟩

theorem withdrawQueued_of_unmarked (reason : CancelReason) (mark : s.records[k].mark ≠ .claim) :
    (s.withdrawQueued reason k).records[k]
        = { s.records[k] with waitTimer := none, cancelOwed := some reason }
      ∧ (s.withdrawQueued reason k).notices = s.notices := by
  have start : (s.mapRecord k fun r => { r with waitTimer := none }).records[k].mark ≠ .claim := by
    simpa using mark
  unfold State.withdrawQueued
  dsimp only
  split
  · next claim => exact absurd claim start
  all_goals
    rw [LocalClaims.mapRecord_mapRecord]
    exact ⟨Vector.getElem_set_self _, rfl⟩

/-! ## The records at the change to LEAVING (R168) -/

/-- A QUEUED claim not yet withdrawn. -/
def Withdrawable (k : RecordIndex) (s : State) : Prop :=
  s.records[k].state = .queued ∧ s.records[k].cancelOwed = none

theorem withdrawOnLeaving_of_withdrawable (h : Withdrawable k s) :
    s.withdrawOnLeaving k = s.withdrawQueued .withdrawn k := if_pos h

theorem withdrawOnLeaving_of_other (h : ¬ Withdrawable k s) : s.withdrawOnLeaving k = s := if_neg h

theorem Untouched.state (h : Untouched k s u) : u.records[k].state = s.records[k].state := by
  rw [h.record]

theorem Untouched.cancelOwed (h : Untouched k s u) :
    u.records[k].cancelOwed = s.records[k].cancelOwed := by
  rw [h.record]

theorem Untouched.withdrawable_iff (h : Untouched k s u) : Withdrawable k u ↔ Withdrawable k s := by
  rw [Withdrawable, h.state, h.cancelOwed, Withdrawable]

theorem owedDrop_of_withdrawable (law : s.ClaimLaw) (h : Withdrawable k s) :
    s.records[k].owedDrop = false := by
  obtain ⟨-, dropping, -⟩ := law k
  obtain ⟨queued, -⟩ := h
  refine Bool.eq_false_iff.2 fun owed => ?_
  exact RecordState.noConfusion (queued.symm.trans (dropping owed))

theorem startLeaving_other (h : ¬ Withdrawable k s) : Untouched k s s.startLeaving := by
  obtain ⟨v, before, after⟩ := startLeaving_at k s
  rw [withdrawOnLeaving_of_other (mt before.withdrawable_iff.1 h)] at after
  exact before.trans after

theorem startLeaving_queued (queued : s.records[k].state = .queued) :
    s.startLeaving.records[k].state = .done
      ∨ s.startLeaving.records[k].state = .queued
        ∧ s.startLeaving.records[k].cancelOwed.isSome = true := by
  by_cases withdrawable : Withdrawable k s
  · obtain ⟨v, before, after⟩ := startLeaving_at k s
    have still := before.withdrawable_iff.2 withdrawable
    rw [after.state, after.cancelOwed, withdrawOnLeaving_of_withdrawable still]
    exact withdrawQueued_ends_or_owes .withdrawn still.1
  · rw [(startLeaving_other withdrawable).state, (startLeaving_other withdrawable).cancelOwed]
    exact .inr ⟨queued, Option.isSome_iff_ne_none.2 fun owes => withdrawable ⟨queued, owes⟩⟩

/-- A QUEUED claim not yet withdrawn comes to its withdrawal with its fields and its frames as they were,
and keeps what the withdrawal makes of them. -/
theorem startLeaving_withdrawn (law : s.ClaimLaw) (h : Withdrawable k s) :
    ∃ v, v.records[k] = s.records[k] ∧ frames k v = frames k s ∧ v.records[k].owedDrop = false
      ∧ ((v.withdrawQueued .withdrawn k).records[k].owedDrop = false →
        s.startLeaving.records[k] = (v.withdrawQueued .withdrawn k).records[k]
          ∧ frames k s.startLeaving = frames k (v.withdrawQueued .withdrawn k)) := by
  obtain ⟨v, before, after⟩ := startLeaving_at k s
  have quiet := owedDrop_of_withdrawable law h
  obtain ⟨record, same⟩ := before.quiet quiet
  rw [withdrawOnLeaving_of_withdrawable (before.withdrawable_iff.2 h)] at after
  exact ⟨v, record, same, by rw [record, quiet], after.quiet⟩

section
variable (law : s.ClaimLaw) (h : Withdrawable k s)
include law h

theorem startLeaving_of_ready (tx : s.tx.Law) (mark : s.records[k].mark = .claim)
    (queued : e ∈ s.tx.queue) (owner : e.owner = .claimUnit k) (ready : e.state = .ready) :
    s.startLeaving.records[k] = { s.records[k].completed .cancelled with mark := .none }
      ∧ ∀ x ∈ s.startLeaving.tx.queue, x.owner ≠ .claimUnit k := by
  obtain ⟨v, record, same, quiet, after⟩ := startLeaving_withdrawn law h
  obtain ⟨ended, gone, -⟩ := withdrawQueued_of_ready_frame .withdrawn quiet (by rw [record, mark])
    (same.trans (frames_eq_singleton tx queued owner)) ready
  obtain ⟨final, left⟩ := after (by rw [ended]; rfl)
  exact ⟨by rw [final, ended, record]; rfl, owner_of_frames_nil (left.trans gone)⟩

theorem startLeaving_of_active (tx : s.tx.Law) (mark : s.records[k].mark = .claim)
    (queued : e ∈ s.tx.queue) (owner : e.owner = .claimUnit k) (active : e.state = .active) :
    s.startLeaving.records[k]
        = { s.records[k] with waitTimer := none, cancelOwed := some .withdrawn }
      ∧ { e with cancel := true } ∈ s.startLeaving.tx.queue := by
  obtain ⟨v, record, same, quiet, after⟩ := startLeaving_withdrawn law h
  obtain ⟨owing, kept, -⟩ := withdrawQueued_of_active_frame .withdrawn (by rw [record, mark])
    (same.trans (frames_eq_singleton tx queued owner)) active
  obtain ⟨final, left⟩ := after (by rw [owing, quiet])
  refine ⟨by rw [final, owing, record], (mem_frames (k := k)).1 ?_ |>.1⟩
  rw [left, kept]
  exact List.mem_singleton_self _

theorem startLeaving_of_no_entry (mark : s.records[k].mark = .claim)
    (others : ∀ x ∈ s.tx.queue, x.owner ≠ .claimUnit k) :
    s.startLeaving.records[k]
      = { s.records[k] with waitTimer := none, cancelOwed := some .withdrawn, mark := .none } := by
  obtain ⟨v, record, same, quiet, after⟩ := startLeaving_withdrawn law h
  obtain ⟨owing, -⟩ := withdrawQueued_of_no_entry .withdrawn (by rw [record, mark])
    (same.trans (frames_nil_of_owner others))
  rw [(after (by rw [owing, quiet])).1, owing, record]

theorem startLeaving_of_unmarked (mark : s.records[k].mark ≠ .claim) :
    s.startLeaving.records[k]
      = { s.records[k] with waitTimer := none, cancelOwed := some .withdrawn } := by
  obtain ⟨v, record, same, quiet, after⟩ := startLeaving_withdrawn law h
  obtain ⟨owing, -⟩ := withdrawQueued_of_unmarked .withdrawn (by rwa [record])
  rw [(after (by rw [owing, quiet])).1, owing, record]

end

/-! ## The notices of the change to LEAVING (R152) -/

/-- The withdrawal of the claim ends it: its CLAIM is READY. -/
abbrev Ends (s : State) (k : RecordIndex) : Prop :=
  s.records[k].state = .queued ∧ s.records[k].cancelOwed = none ∧ s.records[k].mark = .claim
    ∧ ∃ e ∈ s.tx.queue, e.owner = .claimUnit k ∧ e.state = .ready

theorem withdrawOnLeaving_notices_of_ends (tx : s.tx.Law) (law : s.ClaimLaw) (h : Untouched k s u)
    (ends : Ends s k) : (u.withdrawOnLeaving k).notices
      = u.notices.post (.slot s.records[k].slot) (byteOf k.val) := by
  obtain ⟨queued, owes, mark, e, he, owner, ready⟩ := ends
  have quiet := owedDrop_of_withdrawable law ⟨queued, owes⟩
  obtain ⟨record, same⟩ := h.quiet quiet
  rw [withdrawOnLeaving_of_withdrawable (h.withdrawable_iff.2 ⟨queued, owes⟩)]
  rw [← record] at quiet mark ⊢
  exact (withdrawQueued_of_ready_frame .withdrawn quiet mark
    (same.trans (frames_eq_singleton tx he owner)) ready).2.2

theorem withdrawOnLeaving_notices_of_kept (tx : s.tx.Law) (law : s.ClaimLaw) (h : Untouched k s u)
    (kept : ¬ Ends s k) : (u.withdrawOnLeaving k).notices = u.notices := by
  by_cases withdrawable : Withdrawable k s
  · obtain ⟨record, same⟩ := h.quiet (owedDrop_of_withdrawable law withdrawable)
    have single := frames_length tx k
    rw [withdrawOnLeaving_of_withdrawable (h.withdrawable_iff.2 withdrawable)]
    by_cases mark : s.records[k].mark = .claim
    · rcases only : frames k s with _ | ⟨e, _ | ⟨x, rest⟩⟩
      · exact (withdrawQueued_of_no_entry .withdrawn (by rw [record, mark]) (same.trans only)).2
      · cases state : e.state with
        | ready =>
          obtain ⟨he, owner⟩ := mem_frames.1 (only ▸ List.mem_singleton_self e)
          exact absurd ⟨withdrawable.1, withdrawable.2, mark, e, he, owner, state⟩ kept
        | active =>
          exact (withdrawQueued_of_active_frame .withdrawn (by rw [record, mark]) (same.trans only)
            state).2.2
      · simp [only] at single
    · exact (withdrawQueued_of_unmarked .withdrawn (by rwa [record])).2
  · rw [withdrawOnLeaving_of_other (mt h.withdrawable_iff.1 withdrawable)]

theorem withdrawOnLeaving_all_notices (tx : s.tx.Law) (law : s.ClaimLaw) {ks : List RecordIndex}
    (distinct : ks.Nodup) (h : ∀ k ∈ ks, Untouched k s u) :
    (ks.foldl State.withdrawOnLeaving u).notices =
      (ks.filter fun k => decide (Ends s k)).foldl
        (fun q k => q.post (.slot s.records[k].slot) (byteOf k.val)) u.notices := by
  induction ks generalizing u with
  | nil => rfl
  | cons k ks ih =>
    obtain ⟨notIn, rest⟩ := List.nodup_cons.1 distinct
    have first := h k List.mem_cons_self
    rw [List.foldl_cons, ih rest fun j hj => (h j (List.mem_cons_of_mem _ hj)).trans
      (untouched_withdrawOnLeaving (fun same : k = j => notIn (same ▸ hj)) u)]
    by_cases ends : Ends s k
    · rw [List.filter_cons_of_pos (by simpa only [decide_eq_true_eq] using ends), List.foldl_cons,
        withdrawOnLeaving_notices_of_ends tx law first ends]
    · rw [List.filter_cons_of_neg (by simpa only [decide_eq_true_eq] using ends),
        withdrawOnLeaving_notices_of_kept tx law first ends]

theorem startLeaving_notices (tx : s.tx.Law) (law : s.ClaimLaw) :
    s.startLeaving.notices = s.postsFor (allRecords.filter fun k => decide (Ends s k)) := by
  have entered : (leavingEntered s).notices = s.notices := by simp [leavingEntered]
  rw [startLeaving_eq, withdrawOnLeaving_all_notices tx law GroupForming.allRecords_nodup
    fun k _ => untouched_leavingEntered k s, entered]

/-! ## The LEAVE owed or queued (R67, R141) -/

theorem handOut_leave (owed : s.ctrl.owed.leave = true) : s.handOut.ctrl.owed.leave = true
    ∨ ∃ e ∈ s.handOut.tx.queue, e.kind = .leave ∧ e.owner = .controller :=
  (s.handOut_owed .leave owed).imp_right fun ⟨e, he, kind, owner, _⟩ => ⟨e, he, kind, owner⟩

/-- A station in LEAVING, its LEAVE owed or queued. -/
structure Leaving (s : State) : Prop where
  station : s.ctrl.station = .leaving
  marked : s.ctrl.leaveMark = true
  comes : s.ctrl.owed.leave = true ∨ ∃ e ∈ s.tx.queue, e.kind = .leave ∧ e.owner = .controller

/-- The LEAVE stays while the controller keeps it owed and its entries keep their places. -/
theorem Leaving.of_kept (h : Leaving s) (ctrl : u.ctrl = s.ctrl)
    (queue : ∀ e ∈ s.tx.queue, e.owner = .controller → e ∈ u.tx.queue) : Leaving u where
  station := by rw [ctrl, h.station]
  marked := by rw [ctrl, h.marked]
  comes := by
    rw [ctrl]
    exact h.comes.imp_right fun ⟨e, he, kind, owner⟩ => ⟨e, queue e he owner, kind, owner⟩

theorem Leaving.handOut (h : Leaving s) : Leaving s.handOut where
  station := by rw [State.handOut_ctrl_station, h.station]
  marked := by rw [State.handOut_ctrl_leaveMark, h.marked]
  comes := by
    rcases h.comes with owed | ⟨e, he, leave⟩
    · exact handOut_leave owed
    · obtain ⟨extra, queue, -⟩ := s.handOut_queue
      exact .inr ⟨e, by rw [queue]; exact List.mem_append_left _ he, leave⟩

theorem Leaving.cancel (h : Leaving s) (k : RecordIndex) : Leaving (s.cancel (ofRecord k)).1 := by
  have notNamed (e : TxEntry) (owner : e.owner = .controller) : ofRecord k e = false := by
    simp [ofRecord, owner]
  unfold State.cancel
  split
  · exact h
  · split
    · exact h.of_kept rfl fun e he owner =>
        List.mem_map.2 ⟨e, he, markCancelled_of_not_named (notNamed e owner)⟩
    · refine (h.of_kept (u := s.mapTx _) rfl fun e he owner => ?_).handOut
      exact (List.mem_eraseP_of_neg (by simp [notNamed e owner])).2 he

theorem Leaving.withdrawOnLeaving (h : Leaving s) (k : RecordIndex) :
    Leaving (s.withdrawOnLeaving k) := by
  have stopped : Leaving (s.mapRecord k fun r => { r with waitTimer := none }) :=
    h.of_kept rfl fun _ he _ => he
  have cancelled := stopped.cancel k
  unfold State.withdrawOnLeaving
  split
  · unfold State.withdrawQueued
    dsimp only
    split
    · split <;> next heq =>
        rw [heq] at cancelled
        exact cancelled.of_kept rfl fun _ he _ => he
    all_goals exact stopped.of_kept rfl fun _ he _ => he
  · exact h

theorem Leaving.withdrawOnLeaving_all (h : Leaving s) (ks : List RecordIndex) :
    Leaving (ks.foldl State.withdrawOnLeaving s) := by
  induction ks generalizing s with
  | nil => exact h
  | cons k ks ih => exact ih (h.withdrawOnLeaving k)

theorem leavingEntered_leaving (s : State) : Leaving (leavingEntered s) := by
  have marked : Leaving (s.mapCtrl fun c =>
      { c with leaveMark := true, owed := { c.owed with leave := true }, station := .leaving }) :=
    ⟨rfl, rfl, .inl rfl⟩
  exact marked.handOut

theorem startLeaving_leaving (s : State) : Leaving s.startLeaving := by
  rw [startLeaving_eq]
  exact (leavingEntered_leaving s).withdrawOnLeaving_all allRecords

/-! ## JOIN and LEAVE (R106, R141, R143, R190) -/

theorem exec_join {status : Status} (takes : s.Takes .join) (he : joinEffect s = t.answers status) :
    exec .join s = .next (t.answered 0x12 status []) :=
  LocalClaims.takeCommand_of_effect takes he

theorem exec_leave {status : Status} (takes : s.Takes .leave) (he : leaveEffect s = t.answers status) :
    exec .leave s = .next (t.answered 0x13 status []) :=
  LocalClaims.takeCommand_of_effect takes he

theorem enterListening_eq (s : State) : s.enterListening =
    { s with ctrl := { s.ctrl with
        station := .listening, workingE := s.ownE, learnedE := none, lowestTag := none,
        listen := .start (2 * s.ownE) s.ctrl.lineFault } } := by
  rw [State.enterListening, State.enter_of_silent _ _ (.inr (.inl rfl))]
  rfl

theorem joinEffect_of_offline (offline : s.ctrl.station = .offline) :
    joinEffect s = s.enterListening.answers .ok := if_pos offline

theorem joinEffect_of_wrongState (online : s.ctrl.station ≠ .offline) :
    joinEffect s = s.answers .wrongState := if_neg online

theorem leaveEffect_of_offline (offline : s.ctrl.station = .offline) :
    leaveEffect s = s.answers .wrongState := by
  unfold leaveEffect
  rw [offline]

theorem leaveEffect_of_already
    (already : s.ctrl.station = .leaving ∨ s.ctrl.station = .catchup ∧ s.ctrl.leaveMark = true) :
    leaveEffect s = s.answers .already := by
  unfold leaveEffect
  rcases already with leaving | ⟨catchup, marked⟩
  · rw [leaving]
  · rw [catchup]
    exact if_pos marked

theorem leaveEffect_of_member (member : s.ctrl.station = .member) :
    leaveEffect s = s.startLeaving.answers .ok := by
  unfold leaveEffect
  rw [member]

/-- The station with its leave mark set (R143). -/
def leaveMarked (s : State) : State := s.mapCtrl fun c => { c with leaveMark := true }

theorem leaveEffect_of_catchup (catchup : s.ctrl.station = .catchup)
    (unmarked : s.ctrl.leaveMark = false) :
    leaveEffect s = (leaveMarked s).catchupFailure.answers .ok := by
  unfold leaveEffect
  rw [catchup]
  exact if_neg (by simp [unmarked])

theorem leaveEffect_of_outside
    (outside : s.ctrl.station = .listening ∨ s.ctrl.station = .founding ∨ s.ctrl.station = .asking
      ∨ s.ctrl.station = .holdoff) : leaveEffect s = s.clearGroup.enterOffline.answers .ok := by
  unfold leaveEffect
  rcases outside with h | h | h | h <;> rw [h]

theorem catchupFailure_of_failed (failed : s.ctrl.failed = true) : s.catchupFailure = s := if_pos failed

/-- The first failure: the station stays in CATCHUP with nothing left to apply and its LEAVE owed or
queued (R128). -/
theorem catchupFailure_of_not_failed (going : s.ctrl.failed = false) :
    s.catchupFailure.ctrl.failed = true ∧ s.catchupFailure.ctrl.pendingApply = []
      ∧ s.catchupFailure.ctrl.snapshot = .empty
      ∧ s.catchupFailure.ctrl.stall = .running s.ctrl.workingE
      ∧ s.catchupFailure.ctrl.station = s.ctrl.station
      ∧ s.catchupFailure.ctrl.leaveMark = s.ctrl.leaveMark
      ∧ s.catchupFailure.ctrl.catchupCount = s.ctrl.catchupCount
      ∧ (s.catchupFailure.ctrl.owed.leave = true
        ∨ ∃ e ∈ s.catchupFailure.tx.queue, e.kind = .leave ∧ e.owner = .controller) := by
  unfold State.catchupFailure
  rw [if_neg (by simp [going])]
  refine ⟨by simp, by simp, by simp, by simp, by simp, by simp, by simp, ?_⟩
  exact handOut_leave (by rfl)

theorem clearGroup_enterOffline_eq (s : State) : s.clearGroup.enterOffline =
    { s with
      line := s.lineFlushed, tx := .empty, rx := s.rx.clear,
      ctrl := { s.ctrl.cleared s.ownE with station := .offline, holdoff := .stopped } } := by
  rw [State.clearGroup, GroupForming.flush_eq]
  rfl

/-- Settles O9: JOIN and LEAVE state by state; the change to LEAVING record by record, each of which comes
to its own withdrawal unchanged. -/
theorem joinAndLeaveByState : Obligations.JoinAndLeaveByState := by
  refine ⟨fun s takes => ⟨fun offline => ?_, fun online => ?_⟩, fun s takes => ⟨fun offline => ?_,
    fun already => ?_, fun member => ⟨_, exec_leave takes (leaveEffect_of_member member), ?_⟩,
    fun catchup unmarked =>
      ⟨_, exec_leave takes (leaveEffect_of_catchup catchup unmarked), ?_⟩,
    fun outside => ⟨_, exec_leave takes (leaveEffect_of_outside outside), ?_⟩⟩⟩
  · rw [exec_join takes (joinEffect_of_offline offline), enterListening_eq]
    rfl
  · exact exec_join takes (joinEffect_of_wrongState online)
  · exact exec_leave takes (leaveEffect_of_offline offline)
  · exact exec_leave takes (leaveEffect_of_already already)
  · obtain ⟨-, line, rx, table, port, timebase, -⟩ := State.startLeaving_untouched s
    obtain ⟨station, marked, comes⟩ := startLeaving_leaving s
    have queued := @startLeaving_queued s
    have others := @startLeaving_other s
    have notices := @startLeaving_notices s
    have ready := @startLeaving_of_ready s
    have active := @startLeaving_of_active s
    have noEntry := @startLeaving_of_no_entry s
    have unmarked := @startLeaving_of_unmarked s
    generalize s.startLeaving = t at *
    exact ⟨congrArg (Port.taken (some 0x13) .ok []) port, station, marked, comes,
      fun k => queued (k := k),
      fun tx law => ⟨notices tx law, fun k isQueued owes =>
        ⟨fun e he mark owner => ⟨ready law ⟨isQueued, owes⟩ tx mark he owner,
            active law ⟨isQueued, owes⟩ tx mark he owner⟩,
          noEntry law ⟨isQueued, owes⟩, unmarked law ⟨isQueued, owes⟩⟩⟩,
      fun k other => (others fun ⟨queued, owes⟩ => other.elim (· queued) (· owes)).record,
      line, rx, table, timebase⟩
  · obtain ⟨-, line, rx, table, notices, port, -⟩ :=
      State.catchupFailure_untouched (leaveMarked s)
    refine ⟨congrArg (Port.taken (some 0x13) .ok []) port, ?_⟩
    cases failed : s.ctrl.failed with
    | false =>
      obtain ⟨hfailed, hpending, hsnapshot, hstall, hstation, hmark, hcount, hleave⟩ :=
        catchupFailure_of_not_failed (s := leaveMarked s) failed
      exact ⟨hstation.trans catchup, hmark, hfailed, hcount,
        fun _ => ⟨hpending, hsnapshot, hstall, hleave⟩, fun h => (Bool.false_ne_true h).elim, line, rx,
        table, notices⟩
    | true =>
      rw [catchupFailure_of_failed (s := leaveMarked s) failed]
      exact ⟨catchup, rfl, failed, rfl, fun h => (Bool.false_ne_true h.symm).elim, fun _ => rfl, rfl, rfl,
        rfl, rfl⟩
  · rw [clearGroup_enterOffline_eq]
    exact ⟨rfl, rfl, rfl, rfl, rfl, rfl, rfl, rfl, rfl⟩

end Sys2Proof.Machine.LocalPort

/-! The command at the front of the queue, and what no command touches: the commands that wait and what
the outside does to LINE (section 0.3.2). -/

namespace Sys2Proof.Machine.EveryCommand

variable {s t u : State} {c : Instr}

/-! ## The front of the queue -/

theorem step_of_front {rest : List Instr} (front : s.pending = c :: rest) :
    step s = exec c (s.withPending rest) := by
  unfold step
  rw [front]

/-- Settles O1: the state without the front of its queue is the state with the rest as its queue. -/
theorem stepRunsTheFrontCommand : Obligations.StepRunsTheFrontCommand :=
  fun _ _ _ front => step_of_front front

/-! ## What is not the part's own -/

/-- From `s` to `t` the commands that wait and the outside of LINE stay as they are. -/
structure Keeps (s t : State) : Prop where
  pending : t.pending = s.pending
  lineIn : t.lineIn = s.lineIn

theorem keeps_iff : Keeps s t ↔ t.pending = s.pending ∧ t.lineIn = s.lineIn :=
  ⟨fun h => ⟨h.pending, h.lineIn⟩, fun ⟨pending, lineIn⟩ => ⟨pending, lineIn⟩⟩

theorem Keeps.refl (s : State) : Keeps s s := ⟨rfl, rfl⟩

theorem Keeps.trans (h : Keeps s t) (g : Keeps t u) : Keeps s u :=
  ⟨g.pending.trans h.pending, g.lineIn.trans h.lineIn⟩

theorem keeps_mapPort (f : Port → Port) : Keeps s (s.mapPort f) := ⟨rfl, rfl⟩

/-- The outcome is a next state that keeps what is not the part's own. -/
def Answers (s : State) (o : Host.Outcome State Fault Refusal) : Prop :=
  ∃ t, o = .next t ∧ Keeps s t

theorem answers_next (h : Keeps s t) : Answers s (.next t) := ⟨t, rfl, h⟩

/-- An event of the part answers a state, due or not (log entry 1). -/
theorem answers_whenDue {due : Bool} {effect : State → State} (h : Keeps s (effect s)) :
    Answers s (whenDue due effect s) := by
  cases due with
  | true => exact answers_next h
  | false => exact answers_next (.refl s)

/-- A command of the port answers a state, whether it is taken, held or discarded (R180). -/
theorem answers_takeCommand {keep : Option Byte} {effect : State → Effect}
    (h : Keeps s (effect s).after) : Answers s (takeCommand c keep effect s) := by
  unfold takeCommand
  split
  · exact answers_next (h.trans (keeps_mapPort _))
  · exact answers_next (keeps_mapPort _)

/-! ## Configuration, joining and leaving (R187, R188, R190, R191) -/

theorem keeps_configured (d : BitVec 16) (f : Byte) (timebase : BitVec 16) (p k : Byte) :
    Keeps s (s.configured d f timebase p k) := by
  unfold State.configured
  dsimp only
  split <;> split <;> exact ⟨rfl, rfl⟩

theorem keeps_configureEffect (d : BitVec 16) (f : Byte) (timebase : BitVec 16) (p k : Byte) :
    Keeps s (configureEffect d f timebase p k s).after := by
  unfold configureEffect
  split
  · exact .refl s
  · split
    · exact .refl s
    · exact keeps_configured d f timebase p k

theorem keeps_defineEffect (resource limit : Byte) :
    Keeps s (defineEffect resource limit s).after := by
  unfold defineEffect
  split
  · exact .refl s
  · split
    · split
      · exact ⟨rfl, rfl⟩
      · exact .refl s
    · exact .refl s

theorem keeps_enterListening : Keeps s s.enterListening := keeps_iff.2 (by simp)

theorem keeps_joinEffect : Keeps s (joinEffect s).after := by
  unfold joinEffect
  split
  · exact keeps_enterListening
  · exact .refl s

theorem keeps_leaveEffect : Keeps s (leaveEffect s).after := by
  have marked : Keeps s
      (s.mapCtrl fun c => { c with leaveMark := true }).catchupFailure := keeps_iff.2 (by simp)
  have offline : Keeps s s.clearGroup.enterOffline := keeps_iff.2 (by simp)
  unfold leaveEffect
  split
  case h_1 => exact keeps_iff.2 (by simp [State.answers])
  case h_2 =>
    split
    · exact .refl s
    · exact marked
  case h_3 | h_8 => exact .refl s
  all_goals exact offline

/-! ## Claims (R153, R154, R161, R166, R167) -/

theorem keeps_claimEffect (slot resource flags : Byte) (waitLimit : BitVec 16) :
    Keeps s (claimEffect slot resource flags waitLimit s).after := by
  unfold claimEffect
  split
  · exact .refl s
  · split
    · split
      · exact .refl s
      · split
        · exact .refl s
        · split
          · exact keeps_iff.2 (by simp)
          · exact .refl s
    · exact .refl s

theorem keeps_hostDrop (reason : DropReason) (k : RecordIndex) :
    Keeps s (s.hostDrop reason k).after := by
  have owed : Keeps s (s.dropRecord reason k) := keeps_iff.2 (by simp)
  unfold State.hostDrop
  split
  · split
    · exact ⟨rfl, rfl⟩
    · exact .refl s
  all_goals exact owed

theorem keeps_dropEffect (record : Byte) : Keeps s (dropEffect record s).after := by
  unfold dropEffect
  split
  · exact .refl s
  · split
    · exact .refl s
    · split
      · split
        · exact .refl s
        · exact keeps_iff.2 (by simp [State.answers])
      · exact keeps_hostDrop _ _
      · exact keeps_hostDrop _ _
      all_goals exact .refl s

theorem keeps_retireRecord (k : RecordIndex) : Keeps s (s.retireRecord k) := ⟨rfl, rfl⟩

theorem keeps_readClaimEffect (record option : Byte) :
    Keeps s (readClaimEffect record option s).after := by
  unfold readClaimEffect
  split
  · exact .refl s
  · dsimp only
    split
    · exact keeps_retireRecord _
    · exact .refl s

theorem keeps_retireEffect (record : Byte) : Keeps s (retireEffect record s).after := by
  unfold retireEffect
  split
  · exact .refl s
  · split
    · exact keeps_retireRecord _
    all_goals exact .refl s

/-! ## Notices and the reading of the station (R173, R174, R192 to R194) -/

theorem keeps_mapNotices (f : NoticeQueue → NoticeQueue) : Keeps s (s.mapNotices f) := ⟨rfl, rfl⟩

theorem keeps_readNoticeEffect : Keeps s (readNoticeEffect s).after := by
  unfold readNoticeEffect
  split
  · exact .refl s
  · exact keeps_mapNotices _

theorem keeps_ackNoticeEffect (subject count : Byte) :
    Keeps s (ackNoticeEffect subject count s).after := by
  unfold ackNoticeEffect
  split
  · exact .refl s
  · split
    · exact .refl s
    · split
      · exact .refl s
      · split
        · exact .refl s
        · split
          · exact .refl s
          · exact keeps_mapNotices _

theorem keeps_readRosterEffect : Keeps s (readRosterEffect s).after := by
  unfold readRosterEffect
  split <;> exact .refl s

theorem keeps_readResourceEffect (resource first : Byte) :
    Keeps s (readResourceEffect resource first s).after := by
  unfold readResourceEffect
  split
  · exact .refl s
  · split <;> exact .refl s

theorem keeps_repeatEffect : Keeps s (repeatEffect s).after :=
  (LocalPort.repeatEffect_after s).symm ▸ .refl s

/-! ## The pins and the characters of the port (R178, R179, R184, R185) -/

theorem answers_deviceReset (straps : BitVec 5) (auto csLow : Bool) :
    Answers s (execDeviceReset straps auto csLow s) := by
  have reset : Keeps s (s.deviceReset straps.toFin auto csLow) := ⟨rfl, rfl⟩
  refine answers_next ?_
  split
  · exact reset.trans keeps_enterListening
  · exact reset

theorem answers_portCharacter (mosi : Byte) : Answers s (execPortCharacter mosi s) := by
  unfold execPortCharacter
  split
  · exact answers_next (.refl s)
  · exact answers_next ⟨rfl, rfl⟩
  · exact answers_next (keeps_mapPort _)

/-! ## Every command -/

theorem answers_exec (c : Instr) (s : State) : Answers s (exec c s) := by
  cases c with
  | deviceReset straps auto csLow => exact answers_deviceReset straps auto csLow
  | transactionOpen | transactionClose => exact answers_next (keeps_mapPort _)
  | portCharacter mosi => exact answers_portCharacter mosi
  | configure d f timebase p k => exact answers_takeCommand (keeps_configureEffect d f timebase p k)
  | defineResource resource limit => exact answers_takeCommand (keeps_defineEffect resource limit)
  | join => exact answers_takeCommand keeps_joinEffect
  | leave => exact answers_takeCommand keeps_leaveEffect
  | claim slot resource flags waitLimit =>
    exact answers_takeCommand (keeps_claimEffect slot resource flags waitLimit)
  | drop record => exact answers_takeCommand (keeps_dropEffect record)
  | readClaim record option => exact answers_takeCommand (keeps_readClaimEffect record option)
  | retire record => exact answers_takeCommand (keeps_retireEffect record)
  | readNotice => exact answers_takeCommand keeps_readNoticeEffect
  | ackNotice subject count => exact answers_takeCommand (keeps_ackNoticeEffect subject count)
  | readRoster => exact answers_takeCommand keeps_readRosterEffect
  | readResource resource first => exact answers_takeCommand (keeps_readResourceEffect resource first)
  | repeatResponse => exact answers_takeCommand keeps_repeatEffect
  | readStatus | unknownCommand _ => exact answers_takeCommand (.refl s)
  | timebaseTick | gapExpiry | lineIdle | vetoDriveEnd | breakDriveEnd =>
    exact answers_whenDue ⟨rfl, rfl⟩
  | startEdge | attemptStart | characterComplete | arbitrationLoss | readbackMismatch | windowClose
  | breakTaken | breakEnd | lineFault | lineRecovery | takeCharacter | takeTruncation | takeBreak
  | windowOpening | windowResult | handoff | application | acceptedReport _ | withdrawnReport _
  | replayStep | listenTimerExpiry | askTimerExpiry | stallTimerExpiry | presenceTimerExpiry
  | silenceTimerExpiry _ | holdoffTimerExpiry | waitTimerExpiry _ =>
    exact answers_whenDue (keeps_iff.2 (by simp))

/-- Settles O2: device reset and the port's characters leave the queue and the outside of LINE, and so
does the effect of every command taken and of every event that is due. -/
theorem everyCommandAnswersAState : Obligations.EveryCommandAnswersAState := by
  intro c s
  obtain ⟨t, next, kept⟩ := answers_exec c s
  exact ⟨t, next, kept.pending, kept.lineIn⟩

end Sys2Proof.Machine.EveryCommand
